-- ==== Sys2Proof/Word.lean ====
section
/-! DEFINITION. The word and byte types of PythEVM CORE (spec/00_scope.md R6, R12). -/

namespace Sys2Proof

/-- One byte of code, memory or return data. -/
abbrev Byte := BitVec 8

/-- R6: "a 256-bit unsigned integer, range [0, 2^256 - 1]", the one type of stack elements and ALU values. -/
abbrev Word := BitVec 256

/-- R6: `WORD_BYTES`, the growth granule of memory. -/
abbrev wordBytes : Nat := 32

/-- One more than the largest Word, R6. -/
abbrev wordLimit : Nat := 2 ^ 256

end Sys2Proof
end

