-- ==== Sys2Proof/Config.lean ====
section
/-! DEFINITION. The implementation parameters of spec/00_scope.md R7 to R10. -/

namespace Sys2Proof

/-- R10, 42_push.md R161: how a PUSH immediate that runs past the end of code is read. -/
inductive TruncPushMode where
  /-- The integer of the bytes that are present. -/
  | presentBytes
  /-- The missing low bytes are zero. -/
  | rightPad
  deriving DecidableEq, Repr

/-- The parameters of one build of the block (70_reset_and_hazards.md R341: no run changes them).
They stand in the state (log 1), so that one step function serves every configuration. -/
structure Config where
  /-- `STACK_DEPTH`, R7. -/
  stackDepth : Nat
  /-- `CODE_MAX_LEN`, R8. -/
  codeMaxLen : Nat
  /-- `MEM_LIMIT_BYTES`, R9. -/
  memLimitBytes : Nat
  /-- `RET_LIMIT_BYTES`, R9. -/
  retLimitBytes : Nat
  /-- `TRUNC_PUSH_MODE`, R10. -/
  truncPushMode : TruncPushMode
  /-- `EXT_DIV`, R10. -/
  extDiv : Bool
  /-- `EXT_CODECOPY`, R10. -/
  extCodecopy : Bool
  deriving DecidableEq, Repr

/-- What the spec requires of the parameters: `MEM_LIMIT_BYTES` is a multiple of 32 (R9) and at most
`2^256` (20_memory.md R66). -/
def Config.wf (c : Config) : Bool :=
  c.memLimitBytes % wordBytes == 0 && decide (c.memLimitBytes ≤ wordLimit)

/-- R8, 10_state.md R31: the least register width that holds every reachable pc,
`ceil(log2(CODE_MAX_LEN + 33))`, written as the bit length of the largest pc `CODE_MAX_LEN + 32`. -/
def Config.pcBits (c : Config) : Nat :=
  Nat.log2 (c.codeMaxLen + 32) + 1

/-- The defaults of R7 and R10. DESIGN CHOICE (log 2): the spec leaves the three sizes OPEN; the two
limits are the ones its test vectors take. -/
def Config.default : Config where
  stackDepth := 1024
  codeMaxLen := 2 ^ 16
  memLimitBytes := 2 ^ 20
  retLimitBytes := 2 ^ 16
  truncPushMode := .presentBytes
  extDiv := false
  extCodecopy := false

end Sys2Proof
end

