-- ==== Sys2Proof/Machine/State.lean ====
section
/-! DEFINITION. The state of PythEVM CORE as plain data (spec/10_state.md R20 to R39, R50, 20_memory.md R60),
the reasons a step stops, and the state after reset (70_reset_and_hazards.md R340). -/

namespace Sys2Proof.Machine

/-- R38: the four Runner states. -/
inductive RunState where
  | running
  | haltedSuccess
  | haltedFailure
  | stepLimitExceeded
  deriving DecidableEq, Repr

/-- 60_exceptions.md R300, R301: the error kinds with their typed payloads. -/
inductive ErrorInfo where
  /-- Code 1; `value`: the integer offered to `push`. -/
  | invalidStackItem (value : Int)
  /-- Code 2; `depth`: the stack depth when raised. -/
  | stackOverflow (depth : Nat)
  /-- Code 3; `needed`: Words the failing primitive requires; `depth`: the stack depth when raised. -/
  | stackUnderflow (needed depth : Nat)
  /-- Code 4; `offset`: the failing offset or position; `length`: present for RETURN's capacity check only. -/
  | invalidMemoryAccess (offset : Int) (length : Option Nat)
  /-- Code 5; `value`: the offered byte value. -/
  | invalidMemoryValue (value : Int)
  /-- Code 6; the negative pc. -/
  | invalidCodeOffset (pc : Int)
  /-- Code 7; `opcode`: the byte; `pc`: its offset. -/
  | unknownOpcode (opcode : Byte) (pc : Nat)
  /-- Code 8; `target`: the rejected Word. -/
  | invalidJumpDestination (target : Word)
  /-- Code 9; `limit`: `max_steps`, absent when there is no budget; `steps`: the step counter when raised. -/
  | executionLimitReached (limit : Option Nat) (steps : Nat)
  deriving DecidableEq, Repr

/-- 20_memory.md R60: the Byte Memory. `words` is `len(M) / 32`; `cells` lists the bytes that are not
zero, addresses rising. An address without a cell reads as 0 (R60, R63: "they read as zero"; log 10). -/
structure Memory where
  words : Nat
  cells : List Host.Cell
  deriving DecidableEq, Repr

/-- 10_state.md R50: the inputs of one run, presented with a `start` event. -/
structure RunRequest where
  /-- `code_in`. -/
  code : List Byte
  /-- `has_budget`. -/
  hasBudget : Bool
  /-- `max_steps`, read only when `has_budget`. -/
  maxSteps : Nat
  /-- The samples of `ext_stop` at the run's polls, in order. -/
  extStop : List Bool
  deriving DecidableEq, Repr

/-- R20: the Execution Context, the Runner's state, the run's inputs (R50) and the build's parameters. -/
structure State where
  /-- The parameters of 00_scope.md R7 to R10 (log 1); no step writes them (R40). -/
  cfg : Config
  /-- `code`, R35. -/
  code : List Byte
  /-- `pc`, R30, R31. -/
  pc : Nat
  /-- `S`, R21: top first, so that element `i` is `x[i]`. -/
  stack : List Word
  /-- `M`, R60. -/
  mem : Memory
  /-- `halted`, R33. -/
  halted : Bool
  /-- `returndata`, R34. -/
  returndata : List Byte
  /-- `JD`, R36, as a rising list. -/
  jd : List Nat
  /-- `steps`, R37. -/
  steps : Nat
  /-- `run_state`, R38. -/
  runState : RunState
  /-- `fault`, R39. -/
  fault : Option ErrorInfo
  /-- `has_budget`, R50, held for the run (R340). -/
  hasBudget : Bool
  /-- `max_steps`, R50, held for the run (R340). -/
  maxSteps : Nat
  /-- The coming samples of `ext_stop` (60_exceptions.md R320), one per poll; a missing one is 0 (log 5). -/
  extStop : List Bool
  /-- The model's own field: the run requests the environment will present, one taken in a terminal
  state (R340, log 6). -/
  requests : List RunRequest
  deriving DecidableEq, Repr

/-- Why the machine stops. -/
inductive Fault where
  /-- Raised by `step` alone, in a terminal state with no `start` presented. SAFE: 10_state.md R38, "Only
  running has a next step"; 40_dispatch_and_runner.md R134, "No step follows a terminal state" (log 7). -/
  | runEnded
  deriving DecidableEq, Repr

/-- Why the model gives no next state. -/
inductive Refusal where
  /-- Raised by `exec` for an instruction without a meaning (none is left). SAFE. -/
  | notModelled (mnemonic : String)
  /-- Raised by `step` when a `start` presents code longer than `CODE_MAX_LEN`. SAFE:
  70_reset_and_hazards.md R343, "the block does not define a run for it"; 93 U4 `refuse` (log 8). -/
  | codeTooLong (length : Nat)
  deriving DecidableEq, Repr

/-- R60: the memory of a fresh context, `len(M) = 0`. -/
def Memory.empty : Memory where
  words := 0
  cells := []

/-- 70_reset_and_hazards.md R340: the state that `start` creates, here for the empty code buffer, no
budget and `ext_stop` tied to 0 (DESIGN CHOICE, log 3), on the default build (log 2). `jd` is
`jumpdests` of the empty buffer. -/
def State.reset : State where
  cfg := Config.default
  code := []
  pc := 0
  stack := []
  mem := Memory.empty
  halted := false
  returndata := []
  jd := []
  steps := 0
  runState := .running
  fault := none
  hasBudget := false
  maxSteps := 0
  extStop := []
  requests := []

end Sys2Proof.Machine
end

