-- ==== Sys2Proof/Machine/Analyzer.lean ====
section
/-! DEFINITION. The Jump Destination Analyzer (spec/47_control_flow.md R240 to R243). It reads code alone. -/

namespace Sys2Proof.Machine

/-- R240: how far the scan moves past byte `b`: over the immediate of a PUSHn, else by 1. -/
def scanAdvance (b : Byte) : Nat :=
  if b = 0x5B then 1
  else if 0x60 ≤ b.toNat ∧ b.toNat ≤ 0x7F then 1 + (b.toNat - 0x5F)
  else 1

/-- R240: the loop `while i < L` from offset `i`, at most `fuel` turns. -/
def scanFrom (code : List Byte) : Nat → Nat → List Nat
  | 0, _ => []
  | fuel + 1, i =>
    match code[i]? with
    | none => []
    | some b =>
      if b = 0x5B then i :: scanFrom code fuel (i + scanAdvance b)
      else scanFrom code fuel (i + scanAdvance b)

/-- R240: `jumpdests(code)`, as a rising list. R241: `L` turns are enough, since every turn advances. -/
def jumpdests (code : List Byte) : List Nat :=
  scanFrom code code.length 0

end Sys2Proof.Machine
end

