-- ==== Sys2Proof/Machine/Flags.lean ====
section
/-! DEFINITION. There are no condition flags (spec/10_state.md R32): a comparison's result is the Word 0 or 1
(44_comparison.md R190). The one flag is `halted` (R33). -/

namespace Sys2Proof.Machine

/-- R190: `bool(c)`, the Word 1 when `c` holds and 0 otherwise. -/
def boolWord (c : Bool) : Word :=
  if c then 1 else 0

/-- R33: set `halted`. Nothing clears it during a run. -/
def State.halt (s : State) : State :=
  { s with halted := true }

end Sys2Proof.Machine
end

