-- ==== Sys2Proof/Syntax.lean ====
section
/-! DEFINITION. The instructions: one constructor per row of spec/opcode_table.json, in its order
(spec/30_encoding.md R95). Every operand but the PUSH immediate is implicit (R94). -/

namespace Sys2Proof

/-- R95. A PUSHn carries its immediate field (R91, R93): the code bytes that are PRESENT after its
opcode byte, first byte most significant, `n` of them unless the code ends earlier (42_push.md R161, log 11). -/
inductive Instr where
  /-- STOP, 0x00, R150. -/
  | stop
  /-- ADD, 0x01, R171. -/
  | add
  /-- MUL, 0x02, R172. -/
  | mul
  /-- SUB, 0x03, R173. -/
  | sub
  /-- DIV, 0x04, R280. -/
  | div
  /-- LT, 0x10, R191. -/
  | lt
  /-- GT, 0x11, R192. -/
  | gt
  /-- SLT, 0x12, R193. -/
  | slt
  /-- SGT, 0x13, R194. -/
  | sgt
  /-- EQ, 0x14, R195. -/
  | eq
  /-- ISZERO, 0x15, R196. -/
  | iszero
  /-- CODECOPY, 0x39, R282. -/
  | codecopy
  /-- MSTORE8, 0x53, R230. -/
  | mstore8
  /-- JUMP, 0x56, R246. -/
  | jump
  /-- JUMPI, 0x57, R248. -/
  | jumpi
  /-- JUMPDEST, 0x5B, R244. -/
  | jumpdest
  /-- PUSH1, 0x60, R400. -/
  | push1 (imm : List Byte)
  /-- PUSH2, 0x61, R401. -/
  | push2 (imm : List Byte)
  /-- PUSH3, 0x62, R402. -/
  | push3 (imm : List Byte)
  /-- PUSH4, 0x63, R403. -/
  | push4 (imm : List Byte)
  /-- PUSH5, 0x64, R404. -/
  | push5 (imm : List Byte)
  /-- PUSH6, 0x65, R405. -/
  | push6 (imm : List Byte)
  /-- PUSH7, 0x66, R406. -/
  | push7 (imm : List Byte)
  /-- PUSH8, 0x67, R407. -/
  | push8 (imm : List Byte)
  /-- PUSH9, 0x68, R408. -/
  | push9 (imm : List Byte)
  /-- PUSH10, 0x69, R409. -/
  | push10 (imm : List Byte)
  /-- PUSH11, 0x6A, R410. -/
  | push11 (imm : List Byte)
  /-- PUSH12, 0x6B, R411. -/
  | push12 (imm : List Byte)
  /-- PUSH13, 0x6C, R412. -/
  | push13 (imm : List Byte)
  /-- PUSH14, 0x6D, R413. -/
  | push14 (imm : List Byte)
  /-- PUSH15, 0x6E, R414. -/
  | push15 (imm : List Byte)
  /-- PUSH16, 0x6F, R415. -/
  | push16 (imm : List Byte)
  /-- PUSH17, 0x70, R416. -/
  | push17 (imm : List Byte)
  /-- PUSH18, 0x71, R417. -/
  | push18 (imm : List Byte)
  /-- PUSH19, 0x72, R418. -/
  | push19 (imm : List Byte)
  /-- PUSH20, 0x73, R419. -/
  | push20 (imm : List Byte)
  /-- PUSH21, 0x74, R420. -/
  | push21 (imm : List Byte)
  /-- PUSH22, 0x75, R421. -/
  | push22 (imm : List Byte)
  /-- PUSH23, 0x76, R422. -/
  | push23 (imm : List Byte)
  /-- PUSH24, 0x77, R423. -/
  | push24 (imm : List Byte)
  /-- PUSH25, 0x78, R424. -/
  | push25 (imm : List Byte)
  /-- PUSH26, 0x79, R425. -/
  | push26 (imm : List Byte)
  /-- PUSH27, 0x7A, R426. -/
  | push27 (imm : List Byte)
  /-- PUSH28, 0x7B, R427. -/
  | push28 (imm : List Byte)
  /-- PUSH29, 0x7C, R428. -/
  | push29 (imm : List Byte)
  /-- PUSH30, 0x7D, R429. -/
  | push30 (imm : List Byte)
  /-- PUSH31, 0x7E, R430. -/
  | push31 (imm : List Byte)
  /-- PUSH32, 0x7F, R431. -/
  | push32 (imm : List Byte)
  /-- DUP1, 0x80, R440. -/
  | dup1
  /-- DUP2, 0x81, R441. -/
  | dup2
  /-- DUP3, 0x82, R442. -/
  | dup3
  /-- DUP4, 0x83, R443. -/
  | dup4
  /-- DUP5, 0x84, R444. -/
  | dup5
  /-- DUP6, 0x85, R445. -/
  | dup6
  /-- DUP7, 0x86, R446. -/
  | dup7
  /-- DUP8, 0x87, R447. -/
  | dup8
  /-- DUP9, 0x88, R448. -/
  | dup9
  /-- DUP10, 0x89, R449. -/
  | dup10
  /-- DUP11, 0x8A, R450. -/
  | dup11
  /-- DUP12, 0x8B, R451. -/
  | dup12
  /-- DUP13, 0x8C, R452. -/
  | dup13
  /-- DUP14, 0x8D, R453. -/
  | dup14
  /-- DUP15, 0x8E, R454. -/
  | dup15
  /-- DUP16, 0x8F, R455. -/
  | dup16
  /-- SWAP1, 0x90, R460. -/
  | swap1
  /-- SWAP2, 0x91, R461. -/
  | swap2
  /-- SWAP3, 0x92, R462. -/
  | swap3
  /-- SWAP4, 0x93, R463. -/
  | swap4
  /-- SWAP5, 0x94, R464. -/
  | swap5
  /-- SWAP6, 0x95, R465. -/
  | swap6
  /-- SWAP7, 0x96, R466. -/
  | swap7
  /-- SWAP8, 0x97, R467. -/
  | swap8
  /-- SWAP9, 0x98, R468. -/
  | swap9
  /-- SWAP10, 0x99, R469. -/
  | swap10
  /-- SWAP11, 0x9A, R470. -/
  | swap11
  /-- SWAP12, 0x9B, R471. -/
  | swap12
  /-- SWAP13, 0x9C, R472. -/
  | swap13
  /-- SWAP14, 0x9D, R473. -/
  | swap14
  /-- SWAP15, 0x9E, R474. -/
  | swap15
  /-- SWAP16, 0x9F, R475. -/
  | swap16
  /-- RETURN, 0xF3, R270. -/
  | ret
  deriving DecidableEq, Repr

namespace Instr

/-- The mnemonic of R95, letter for letter. -/
def mnemonic : Instr → String
  | .stop => "STOP"
  | .add => "ADD"
  | .mul => "MUL"
  | .sub => "SUB"
  | .div => "DIV"
  | .lt => "LT"
  | .gt => "GT"
  | .slt => "SLT"
  | .sgt => "SGT"
  | .eq => "EQ"
  | .iszero => "ISZERO"
  | .codecopy => "CODECOPY"
  | .mstore8 => "MSTORE8"
  | .jump => "JUMP"
  | .jumpi => "JUMPI"
  | .jumpdest => "JUMPDEST"
  | .push1 _ => "PUSH1"
  | .push2 _ => "PUSH2"
  | .push3 _ => "PUSH3"
  | .push4 _ => "PUSH4"
  | .push5 _ => "PUSH5"
  | .push6 _ => "PUSH6"
  | .push7 _ => "PUSH7"
  | .push8 _ => "PUSH8"
  | .push9 _ => "PUSH9"
  | .push10 _ => "PUSH10"
  | .push11 _ => "PUSH11"
  | .push12 _ => "PUSH12"
  | .push13 _ => "PUSH13"
  | .push14 _ => "PUSH14"
  | .push15 _ => "PUSH15"
  | .push16 _ => "PUSH16"
  | .push17 _ => "PUSH17"
  | .push18 _ => "PUSH18"
  | .push19 _ => "PUSH19"
  | .push20 _ => "PUSH20"
  | .push21 _ => "PUSH21"
  | .push22 _ => "PUSH22"
  | .push23 _ => "PUSH23"
  | .push24 _ => "PUSH24"
  | .push25 _ => "PUSH25"
  | .push26 _ => "PUSH26"
  | .push27 _ => "PUSH27"
  | .push28 _ => "PUSH28"
  | .push29 _ => "PUSH29"
  | .push30 _ => "PUSH30"
  | .push31 _ => "PUSH31"
  | .push32 _ => "PUSH32"
  | .dup1 => "DUP1"
  | .dup2 => "DUP2"
  | .dup3 => "DUP3"
  | .dup4 => "DUP4"
  | .dup5 => "DUP5"
  | .dup6 => "DUP6"
  | .dup7 => "DUP7"
  | .dup8 => "DUP8"
  | .dup9 => "DUP9"
  | .dup10 => "DUP10"
  | .dup11 => "DUP11"
  | .dup12 => "DUP12"
  | .dup13 => "DUP13"
  | .dup14 => "DUP14"
  | .dup15 => "DUP15"
  | .dup16 => "DUP16"
  | .swap1 => "SWAP1"
  | .swap2 => "SWAP2"
  | .swap3 => "SWAP3"
  | .swap4 => "SWAP4"
  | .swap5 => "SWAP5"
  | .swap6 => "SWAP6"
  | .swap7 => "SWAP7"
  | .swap8 => "SWAP8"
  | .swap9 => "SWAP9"
  | .swap10 => "SWAP10"
  | .swap11 => "SWAP11"
  | .swap12 => "SWAP12"
  | .swap13 => "SWAP13"
  | .swap14 => "SWAP14"
  | .swap15 => "SWAP15"
  | .swap16 => "SWAP16"
  | .ret => "RETURN"

/-- The PUSH form of an instruction: `n` and the immediate bytes (R91); none for format OP. -/
def pushForm : Instr → Option (Nat × List Byte)
  | .stop => none
  | .add => none
  | .mul => none
  | .sub => none
  | .div => none
  | .lt => none
  | .gt => none
  | .slt => none
  | .sgt => none
  | .eq => none
  | .iszero => none
  | .codecopy => none
  | .mstore8 => none
  | .jump => none
  | .jumpi => none
  | .jumpdest => none
  | .push1 imm => some (1, imm)
  | .push2 imm => some (2, imm)
  | .push3 imm => some (3, imm)
  | .push4 imm => some (4, imm)
  | .push5 imm => some (5, imm)
  | .push6 imm => some (6, imm)
  | .push7 imm => some (7, imm)
  | .push8 imm => some (8, imm)
  | .push9 imm => some (9, imm)
  | .push10 imm => some (10, imm)
  | .push11 imm => some (11, imm)
  | .push12 imm => some (12, imm)
  | .push13 imm => some (13, imm)
  | .push14 imm => some (14, imm)
  | .push15 imm => some (15, imm)
  | .push16 imm => some (16, imm)
  | .push17 imm => some (17, imm)
  | .push18 imm => some (18, imm)
  | .push19 imm => some (19, imm)
  | .push20 imm => some (20, imm)
  | .push21 imm => some (21, imm)
  | .push22 imm => some (22, imm)
  | .push23 imm => some (23, imm)
  | .push24 imm => some (24, imm)
  | .push25 imm => some (25, imm)
  | .push26 imm => some (26, imm)
  | .push27 imm => some (27, imm)
  | .push28 imm => some (28, imm)
  | .push29 imm => some (29, imm)
  | .push30 imm => some (30, imm)
  | .push31 imm => some (31, imm)
  | .push32 imm => some (32, imm)
  | .dup1 => none
  | .dup2 => none
  | .dup3 => none
  | .dup4 => none
  | .dup5 => none
  | .dup6 => none
  | .dup7 => none
  | .dup8 => none
  | .dup9 => none
  | .dup10 => none
  | .dup11 => none
  | .dup12 => none
  | .dup13 => none
  | .dup14 => none
  | .dup15 => none
  | .dup16 => none
  | .swap1 => none
  | .swap2 => none
  | .swap3 => none
  | .swap4 => none
  | .swap5 => none
  | .swap6 => none
  | .swap7 => none
  | .swap8 => none
  | .swap9 => none
  | .swap10 => none
  | .swap11 => none
  | .swap12 => none
  | .swap13 => none
  | .swap14 => none
  | .swap15 => none
  | .swap16 => none
  | .ret => none

/-- The PUSH family (42_push.md R160): `n` with the constructor of PUSHn. -/
def pushFamily : List (Nat × (List Byte → Instr)) :=
  [(1, push1), (2, push2), (3, push3), (4, push4), (5, push5), (6, push6), (7, push7), (8, push8)] ++
  [(9, push9), (10, push10), (11, push11), (12, push12), (13, push13), (14, push14), (15, push15), (16, push16)] ++
  [(17, push17), (18, push18), (19, push19), (20, push20), (21, push21), (22, push22), (23, push23), (24, push24)] ++
  [(25, push25), (26, push26), (27, push27), (28, push28), (29, push29), (30, push30), (31, push31), (32, push32)]

/-- The DUP family (45_stack_ops.md R210): `n` with DUPn. -/
def dupFamily : List (Nat × Instr) :=
  [(1, dup1), (2, dup2), (3, dup3), (4, dup4), (5, dup5), (6, dup6), (7, dup7), (8, dup8)] ++
  [(9, dup9), (10, dup10), (11, dup11), (12, dup12), (13, dup13), (14, dup14), (15, dup15), (16, dup16)]

/-- The SWAP family (45_stack_ops.md R213): `n` with SWAPn. -/
def swapFamily : List (Nat × Instr) :=
  [(1, swap1), (2, swap2), (3, swap3), (4, swap4), (5, swap5), (6, swap6), (7, swap7), (8, swap8)] ++
  [(9, swap9), (10, swap10), (11, swap11), (12, swap12), (13, swap13), (14, swap14), (15, swap15), (16, swap16)]

end Instr

end Sys2Proof
end

