-- ==== Sys2Proof/WellFormed.lean ====
section
/-! DEFINITION. Well-formed instructions (spec/30_encoding.md R91 to R93). -/

namespace Sys2Proof

/-- R91, R161: a PUSHn carries at most `n` immediate bytes. Format OP has no field to check. -/
def Instr.wellFormed (i : Instr) : Bool :=
  match i.pushForm with
  | some (n, imm) => decide (imm.length ≤ n)
  | none => true

/-- R93: all `n` immediate bytes are there; a well-formed PUSHn that is not complete is the truncated
trailing PUSH of 42_push.md R161. -/
def Instr.complete (i : Instr) : Bool :=
  match i.pushForm with
  | some (n, imm) => imm.length == n
  | none => true

end Sys2Proof
end

