-- ==== Sys2Proof/Decode.lean ====
section
/-! DEFINITION. Byte order (spec/00_scope.md R13), the decoder and the encoder of spec/30_encoding.md R91 to R97,
assembly and disassembly (R100, R101), and the host's table-word reading. -/

namespace Sys2Proof

/-! ## Byte order, R13 -/

/-- R13: `be(s)`, the integer of a byte sequence whose first byte is the most significant. -/
def be (s : List Byte) : Nat :=
  s.foldl (fun acc b => 256 * acc + b.toNat) 0

/-- R13: `be_bytes_n(v)`, the `n`-byte sequence of `v mod 256^n`, most significant byte first. -/
def beBytes : Nat → Nat → List Byte
  | 0, _ => []
  | n + 1, v => BitVec.ofNat 8 (v / 256 ^ n) :: beBytes n v

/-! ## Decoding -/

/-- Why a byte sequence is not decoded. -/
inductive DecodeError where
  /-- There is no opcode byte (40_dispatch_and_runner.md R123 makes this the implicit STOP). -/
  | noByte
  /-- R97: the byte is not assigned. -/
  | unknownOpcode (op : Byte)
  deriving DecidableEq, Repr

/-- R95: the instruction that starts a byte sequence, by its opcode byte alone (R90). PUSHn takes the
next `n` bytes, or those that are present (R93, 42_push.md R161). Both optional rows are read here;
`decodeFor` drops them where the build lacks them. -/
def decode : List Byte → Except DecodeError Instr
  | [] => .error .noByte
  | op :: rest =>
    match op.toNat with
    | 0x00 => .ok .stop
    | 0x01 => .ok .add
    | 0x02 => .ok .mul
    | 0x03 => .ok .sub
    | 0x04 => .ok .div
    | 0x10 => .ok .lt
    | 0x11 => .ok .gt
    | 0x12 => .ok .slt
    | 0x13 => .ok .sgt
    | 0x14 => .ok .eq
    | 0x15 => .ok .iszero
    | 0x39 => .ok .codecopy
    | 0x53 => .ok .mstore8
    | 0x56 => .ok .jump
    | 0x57 => .ok .jumpi
    | 0x5B => .ok .jumpdest
    | 0x60 => .ok (.push1 (rest.take 1))
    | 0x61 => .ok (.push2 (rest.take 2))
    | 0x62 => .ok (.push3 (rest.take 3))
    | 0x63 => .ok (.push4 (rest.take 4))
    | 0x64 => .ok (.push5 (rest.take 5))
    | 0x65 => .ok (.push6 (rest.take 6))
    | 0x66 => .ok (.push7 (rest.take 7))
    | 0x67 => .ok (.push8 (rest.take 8))
    | 0x68 => .ok (.push9 (rest.take 9))
    | 0x69 => .ok (.push10 (rest.take 10))
    | 0x6A => .ok (.push11 (rest.take 11))
    | 0x6B => .ok (.push12 (rest.take 12))
    | 0x6C => .ok (.push13 (rest.take 13))
    | 0x6D => .ok (.push14 (rest.take 14))
    | 0x6E => .ok (.push15 (rest.take 15))
    | 0x6F => .ok (.push16 (rest.take 16))
    | 0x70 => .ok (.push17 (rest.take 17))
    | 0x71 => .ok (.push18 (rest.take 18))
    | 0x72 => .ok (.push19 (rest.take 19))
    | 0x73 => .ok (.push20 (rest.take 20))
    | 0x74 => .ok (.push21 (rest.take 21))
    | 0x75 => .ok (.push22 (rest.take 22))
    | 0x76 => .ok (.push23 (rest.take 23))
    | 0x77 => .ok (.push24 (rest.take 24))
    | 0x78 => .ok (.push25 (rest.take 25))
    | 0x79 => .ok (.push26 (rest.take 26))
    | 0x7A => .ok (.push27 (rest.take 27))
    | 0x7B => .ok (.push28 (rest.take 28))
    | 0x7C => .ok (.push29 (rest.take 29))
    | 0x7D => .ok (.push30 (rest.take 30))
    | 0x7E => .ok (.push31 (rest.take 31))
    | 0x7F => .ok (.push32 (rest.take 32))
    | 0x80 => .ok .dup1
    | 0x81 => .ok .dup2
    | 0x82 => .ok .dup3
    | 0x83 => .ok .dup4
    | 0x84 => .ok .dup5
    | 0x85 => .ok .dup6
    | 0x86 => .ok .dup7
    | 0x87 => .ok .dup8
    | 0x88 => .ok .dup9
    | 0x89 => .ok .dup10
    | 0x8A => .ok .dup11
    | 0x8B => .ok .dup12
    | 0x8C => .ok .dup13
    | 0x8D => .ok .dup14
    | 0x8E => .ok .dup15
    | 0x8F => .ok .dup16
    | 0x90 => .ok .swap1
    | 0x91 => .ok .swap2
    | 0x92 => .ok .swap3
    | 0x93 => .ok .swap4
    | 0x94 => .ok .swap5
    | 0x95 => .ok .swap6
    | 0x96 => .ok .swap7
    | 0x97 => .ok .swap8
    | 0x98 => .ok .swap9
    | 0x99 => .ok .swap10
    | 0x9A => .ok .swap11
    | 0x9B => .ok .swap12
    | 0x9C => .ok .swap13
    | 0x9D => .ok .swap14
    | 0x9E => .ok .swap15
    | 0x9F => .ok .swap16
    | 0xF3 => .ok .ret
    | _ => .error (.unknownOpcode op)

/-- R10, R95: DIV is present only when `EXT_DIV`, CODECOPY only when `EXT_CODECOPY`. -/
def Instr.present (cfg : Config) (i : Instr) : Bool :=
  if i = .div then cfg.extDiv else if i = .codecopy then cfg.extCodecopy else true

/-- R97: `decode` for one build: an absent extension's byte is an unknown opcode. -/
def decodeFor (cfg : Config) (bytes : List Byte) : Except DecodeError Instr :=
  match decode bytes with
  | .error e => .error e
  | .ok i => if i.present cfg then .ok i else .error (.unknownOpcode (bytes.headD 0))

/-- R92: the instruction length, told from the opcode byte alone: `1 + n` for PUSHn, 1 for every other
byte, unknown ones included. -/
def opcodeLength (op : Byte) : Nat :=
  if 0x60 ≤ op.toNat ∧ op.toNat ≤ 0x7F then 1 + (op.toNat - 0x5F) else 1

/-! ## Encoding -/

/-- R91, R95: the bytes of an instruction, its opcode byte and its immediate. -/
def encode : Instr → List Byte
  | .stop => [0x00]
  | .add => [0x01]
  | .mul => [0x02]
  | .sub => [0x03]
  | .div => [0x04]
  | .lt => [0x10]
  | .gt => [0x11]
  | .slt => [0x12]
  | .sgt => [0x13]
  | .eq => [0x14]
  | .iszero => [0x15]
  | .codecopy => [0x39]
  | .mstore8 => [0x53]
  | .jump => [0x56]
  | .jumpi => [0x57]
  | .jumpdest => [0x5B]
  | .push1 imm => 0x60 :: imm
  | .push2 imm => 0x61 :: imm
  | .push3 imm => 0x62 :: imm
  | .push4 imm => 0x63 :: imm
  | .push5 imm => 0x64 :: imm
  | .push6 imm => 0x65 :: imm
  | .push7 imm => 0x66 :: imm
  | .push8 imm => 0x67 :: imm
  | .push9 imm => 0x68 :: imm
  | .push10 imm => 0x69 :: imm
  | .push11 imm => 0x6A :: imm
  | .push12 imm => 0x6B :: imm
  | .push13 imm => 0x6C :: imm
  | .push14 imm => 0x6D :: imm
  | .push15 imm => 0x6E :: imm
  | .push16 imm => 0x6F :: imm
  | .push17 imm => 0x70 :: imm
  | .push18 imm => 0x71 :: imm
  | .push19 imm => 0x72 :: imm
  | .push20 imm => 0x73 :: imm
  | .push21 imm => 0x74 :: imm
  | .push22 imm => 0x75 :: imm
  | .push23 imm => 0x76 :: imm
  | .push24 imm => 0x77 :: imm
  | .push25 imm => 0x78 :: imm
  | .push26 imm => 0x79 :: imm
  | .push27 imm => 0x7A :: imm
  | .push28 imm => 0x7B :: imm
  | .push29 imm => 0x7C :: imm
  | .push30 imm => 0x7D :: imm
  | .push31 imm => 0x7E :: imm
  | .push32 imm => 0x7F :: imm
  | .dup1 => [0x80]
  | .dup2 => [0x81]
  | .dup3 => [0x82]
  | .dup4 => [0x83]
  | .dup5 => [0x84]
  | .dup6 => [0x85]
  | .dup7 => [0x86]
  | .dup8 => [0x87]
  | .dup9 => [0x88]
  | .dup10 => [0x89]
  | .dup11 => [0x8A]
  | .dup12 => [0x8B]
  | .dup13 => [0x8C]
  | .dup14 => [0x8D]
  | .dup15 => [0x8E]
  | .dup16 => [0x8F]
  | .swap1 => [0x90]
  | .swap2 => [0x91]
  | .swap3 => [0x92]
  | .swap4 => [0x93]
  | .swap5 => [0x94]
  | .swap6 => [0x95]
  | .swap7 => [0x96]
  | .swap8 => [0x97]
  | .swap9 => [0x98]
  | .swap10 => [0x99]
  | .swap11 => [0x9A]
  | .swap12 => [0x9B]
  | .swap13 => [0x9C]
  | .swap14 => [0x9D]
  | .swap15 => [0x9E]
  | .swap16 => [0x9F]
  | .ret => [0xF3]

/-- R100: a program assembles to the bytes of its instructions in order. -/
def assemble (program : List Instr) : List Byte :=
  program.flatMap encode

/-- R100: PUSHn with the literal `v` where `0 <= v < 256^n`: the byte after the opcode is the first of
`be_bytes_n(v)`. None for a literal or an `n` out of range. -/
def assemblePush (n v : Nat) : Option (List Byte) :=
  if 1 ≤ n ∧ n ≤ 32 ∧ v < 256 ^ n then some (BitVec.ofNat 8 (0x5F + n) :: beBytes n v) else none

/-! ## Disassembly, R101 -/

/-- One line of a listing. -/
inductive ListingItem where
  /-- A byte that decodes: its mnemonic (`Instr.mnemonic`) and, for PUSHn, the value `be` of the `n` bytes that
  follow. DESIGN CHOICE (log 22): R101 does not say what is printed where fewer than `n` bytes follow; the line
  then holds the bytes that are present, with the value `be` of them, whatever `TRUNC_PUSH_MODE` is. -/
  | instr (i : Instr)
  /-- "an unknown byte prints as a data byte". -/
  | data (b : Byte)
  deriving DecidableEq, Repr

/-- R101 from offset `p`, at most `fuel` lines: print the item at `p`, continue at `p + length`. -/
def disassembleFrom (cfg : Config) (code : List Byte) : Nat → Nat → List (Nat × ListingItem)
  | 0, _ => []
  | fuel + 1, p =>
    match code[p]? with
    | none => []
    | some b =>
      let item := match decodeFor cfg (code.drop p) with
        | .ok i => ListingItem.instr i
        | .error _ => ListingItem.data b
      (p, item) :: disassembleFrom cfg code fuel (p + opcodeLength b)

/-- R101: the listing of a code buffer from offset 0, each line with its offset. One line a byte is
enough fuel, since every line advances. -/
def disassemble (cfg : Config) (code : List Byte) : List (Nat × ListingItem) :=
  disassembleFrom cfg code code.length 0

/-! ## The table's words -/

/-- The longest instruction, PUSH32: 33 bytes (R91). -/
def maxInstrBytes : Nat := 33

/-- The bytes of an instruction whose bits are `w`, bit 0 the least significant bit of the first byte
and the bits from `nbits` up zero, filled to the longest instruction. -/
def tableBytes (nbits w : Nat) : List Byte :=
  (List.range maxInstrBytes).map fun i => BitVec.ofNat 8 (w / 2 ^ (8 * i) % 2 ^ min 8 (nbits - 8 * i))

/-- The instruction the decoder reads from a word of spec/opcode_table.json. -/
def decodeTableWord (nbits w : Nat) : Option Instr :=
  match decode (tableBytes nbits w) with
  | .ok i => some i
  | .error _ => none

end Sys2Proof
end

