-- ==== Sys2Proof/Machine/Operands.lean ====
section
/-! DEFINITION. The operand forms: the PUSH immediate (spec/30_encoding.md R93, 42_push.md R161), the signed
view of a Word (00_scope.md R12), and the code bytes CODECOPY reads (49_optional_extensions.md R282). -/

namespace Sys2Proof.Machine

/-- R161: the value `readCode(n)` reads from the bytes that are present, by `TRUNC_PUSH_MODE`:
`be(s)`, or `be(s ++ zeros(n - k))` with `k` bytes present. -/
def immediateValue (mode : TruncPushMode) (n : Nat) (present : List Byte) : Nat :=
  match mode with
  | .presentBytes => be present
  | .rightPad => be (present ++ List.replicate (n - present.length) 0)

/-- R12: the two's-complement view of a Word. -/
def signed (v : Word) : Int :=
  if v.toNat < 2 ^ 255 then (v.toNat : Int) else (v.toNat : Int) - 2 ^ 256

/-- R282: `code[o] if o < L else 0`. -/
def codeByte (code : List Byte) (o : Nat) : Byte :=
  code.getD o 0

/-- R282: the `n` bytes that CODECOPY reads from code offset `o` on. -/
def codeRange (code : List Byte) (o n : Nat) : List Byte :=
  (List.range n).map fun i => codeByte code (o + i)

end Sys2Proof.Machine
end

