-- ==== Sys2Proof/Machine/Ops.lean ====
section
/-! DEFINITION. The operations every meaning is written over: named state updates, raising an error
(spec/00_scope.md R16, 60_exceptions.md R310), the Word Stack (10_state.md R22 to R25), the Byte Memory
controller (20_memory.md R61 to R66), the jump check (47_control_flow.md R245), and the start of a run
(70_reset_and_hazards.md R340). -/

namespace Sys2Proof.Machine

/-! ## Named updates of the state -/

/-- Write the stack. -/
def State.withStack (s : State) (stack : List Word) : State :=
  { s with stack := stack }

/-- Write the pc. -/
def State.withPc (s : State) (pc : Nat) : State :=
  { s with pc := pc }

/-- Write the memory. -/
def State.withMem (s : State) (mem : Memory) : State :=
  { s with mem := mem }

/-- Write the return data. -/
def State.withReturndata (s : State) (r : List Byte) : State :=
  { s with returndata := r }

/-! ## Results that keep the effects before a raise -/

/-- What a part of an instruction's pseudocode answers: a value, or a raised error, each with the state
that the statements executed so far left (R16, R311). -/
inductive Res (α : Type) where
  | ok (value : α) (s : State)
  | raised (e : ErrorInfo) (s : State)

/-- The next statement, executed only when the one before did not raise (R16). -/
def Res.andThen {α β : Type} (r : Res α) (next : α → State → Res β) : Res β :=
  match r with
  | .ok v s => next v s
  | .raised e s => .raised e s

/-- R310, C9: codes 1 to 8 end the run in halted-failure, code 9 in step-limit-exceeded. -/
def ErrorInfo.endState : ErrorInfo → RunState
  | .invalidStackItem _ => .haltedFailure
  | .stackOverflow _ => .haltedFailure
  | .stackUnderflow _ _ => .haltedFailure
  | .invalidMemoryAccess _ _ => .haltedFailure
  | .invalidMemoryValue _ => .haltedFailure
  | .invalidCodeOffset _ => .haltedFailure
  | .unknownOpcode _ _ => .haltedFailure
  | .invalidJumpDestination _ => .haltedFailure
  | .executionLimitReached _ _ => .stepLimitExceeded

/-- TAKING AN ERROR, R310: the step that raises records kind and payload and ends the run. Control goes
nowhere, and nothing else changes (R311). There is no return from it (R312): only `State.start` follows. -/
def State.takeError (s : State) (e : ErrorInfo) : State :=
  { s with fault := some e, runState := e.endState }

/-- The step's outcome once the instruction's statements are through or one has raised (R130 `try`). -/
def Res.outcome (r : Res Unit) : Host.Outcome State Fault Refusal :=
  match r with
  | .ok _ s => .next s
  | .raised e s => .next (s.takeError e)

/-- A check that answers without touching the state. -/
def Res.ofExcept {α : Type} (s : State) (r : Except ErrorInfo α) : Res α :=
  match r with
  | .ok v => .ok v s
  | .error e => .raised e s

/-! ## The Word Stack -/

/-- R22, with the unit's whole interface: any integer may be offered. -/
def push (v : Int) (s : State) : Res Unit :=
  if v < 0 ∨ v > 2 ^ 256 - 1 then .raised (.invalidStackItem v) s
  else if s.stack.length = s.cfg.stackDepth then .raised (.stackOverflow s.stack.length) s
  else .ok () (s.withStack (BitVec.ofInt 256 v :: s.stack))

/-- R22 for a Word, the only kind of value an instruction offers (R26). -/
def pushWord (v : Word) (s : State) : Res Unit :=
  push v.toNat s

/-- R23. -/
def pop (s : State) : Res Word :=
  match s.stack with
  | [] => .raised (.stackUnderflow 1 0) s
  | v :: rest => .ok v (s.withStack rest)

/-- R24. -/
def peek (i : Nat) (s : State) : Res Word :=
  match s.stack[i]? with
  | none => .raised (.stackUnderflow (i + 1) s.stack.length) s
  | some v => .ok v s

/-- R25: the depth check is made for every `i`, also 0. -/
def swap (i : Nat) (s : State) : Res Unit :=
  match s.stack[0]?, s.stack[i]? with
  | some top, some v => .ok () (s.withStack ((s.stack.set 0 v).set i top))
  | _, _ => .raised (.stackUnderflow (i + 1) s.stack.length) s

/-! ## The Byte Memory -/

/-- `len(M)`, R60. -/
def Memory.len (m : Memory) : Nat :=
  wordBytes * m.words

/-- R60, R63: what an unlisted address reads as. -/
def unlistedByte : Byte := 0

/-- The byte listed at an address. -/
def lookupCell (cells : List Host.Cell) (a : Nat) : Byte :=
  match cells with
  | [] => unlistedByte
  | (x, b) :: rest => if x = a then b else lookupCell rest a

/-- The byte of `M` at offset `a`; 0 where memory holds none (R60, R63). -/
def Memory.byteAt (m : Memory) (a : Nat) : Byte :=
  if a < m.len then lookupCell m.cells a else unlistedByte

/-- Write one cell and keep the canonical form: addresses rising, no zero byte listed. -/
def setCell (cells : List Host.Cell) (a : Nat) (b : Byte) : List Host.Cell :=
  match cells with
  | [] => if b = unlistedByte then [] else [(a, b)]
  | (x, c) :: rest =>
    if a < x then (if b = unlistedByte then (x, c) :: rest else (a, b) :: (x, c) :: rest)
    else if a = x then (if b = unlistedByte then rest else (a, b) :: rest)
    else (x, c) :: setCell rest a b

/-- `M[a] <- b` for a byte that memory holds. -/
def Memory.setByte (m : Memory) (a : Nat) (b : Byte) : Memory :=
  { m with cells := setCell m.cells a b }

/-- `M[a + i] <- bs[i]` for every `i`, in order. -/
def Memory.writeBytes (m : Memory) (a : Nat) : List Byte → Memory
  | [] => m
  | b :: bs => (m.setByte a b).writeBytes (a + 1) bs

/-- The addresses of a cell list rise strictly from `lo` on, and no listed byte is what an
unlisted address reads as. -/
def cellsOk (lo : Nat) : List Host.Cell → Bool
  | [] => true
  | (x, b) :: rest => decide (lo ≤ x) && b != unlistedByte && cellsOk (x + 1) rest

/-- The canonical form: `cellsOk`, and every listed address is below `len(M)` (R60). -/
def Memory.wf (m : Memory) : Bool :=
  cellsOk 0 m.cells && m.cells.all fun c => decide (c.1 < m.len)

/-- R61: `check_mem`. -/
def checkMem (o : Int) : Except ErrorInfo Unit :=
  if o < 0 ∨ o > 2 ^ 256 - 1 then .error (.invalidMemoryAccess o none) else .ok ()

/-- R63: one byte, zero past the end; memory does not grow. -/
def Memory.load (m : Memory) (o : Int) : Except ErrorInfo Byte :=
  match checkMem o with
  | .error e => .error e
  | .ok _ => .ok (m.byteAt o.toNat)

/-- R64: the loop of `loadRange`: `n` positions from `o` on, each through `load`. -/
def Memory.loadEach (m : Memory) : Nat → Int → Except ErrorInfo (List Byte)
  | 0, _ => .ok []
  | n + 1, o =>
    match m.load o with
    | .error e => .error e
    | .ok b =>
      match m.loadEach n (o + 1) with
      | .error e => .error e
      | .ok bs => .ok (b :: bs)

/-- R64: `loadRange(o, n)`. -/
def Memory.loadRange (m : Memory) (o n : Int) : Except ErrorInfo (List Byte) :=
  match checkMem o, checkMem n with
  | .error e, _ => .error e
  | .ok _, .error e => .error e
  | .ok _, .ok _ => m.loadEach n.toNat o

/-- R65: `loadWord(o)`, a 32-byte big-endian read through `loadRange`. -/
def Memory.loadWord (m : Memory) (o : Int) : Except ErrorInfo Word :=
  match m.loadRange o wordBytes with
  | .error e => .error e
  | .ok bs => .ok (BitVec.ofNat 256 (be bs))

/-- R66: the words that memory holds after a write of `w` bytes at `o`. -/
def Memory.grownWords (m : Memory) (o w : Nat) : Nat :=
  max m.words ((o + w + (wordBytes - 1)) / wordBytes)

/-- R66: `grow(o, w)` under the capacity `limit`; new bytes are zero. -/
def Memory.grow (m : Memory) (limit o w : Nat) : Except ErrorInfo Memory :=
  if m.grownWords o w * wordBytes > limit then .error (.invalidMemoryAccess o none)
  else .ok { m with words := m.grownWords o w }

/-- R66: `store(o, b)`, checks in the order offset, value, capacity. -/
def Memory.store (m : Memory) (limit : Nat) (o b : Int) : Except ErrorInfo Memory :=
  match checkMem o with
  | .error e => .error e
  | .ok _ =>
    if b < 0 ∨ b > 255 then .error (.invalidMemoryValue b)
    else
      match m.grow limit o.toNat 1 with
      | .error e => .error e
      | .ok g => .ok (g.setByte o.toNat (BitVec.ofInt 8 b))

/-- R66: `storeWord(o, v)`, 32 bytes, big-endian (R72). -/
def Memory.storeWord (m : Memory) (limit : Nat) (o : Int) (v : Word) : Except ErrorInfo Memory :=
  match checkMem o with
  | .error e => .error e
  | .ok _ =>
    match m.grow limit o.toNat wordBytes with
    | .error e => .error e
    | .ok g => .ok (g.writeBytes o.toNat (beBytes wordBytes v.toNat))

/-- `store` on the machine's memory. -/
def storeByte (o b : Int) (s : State) : Res Unit :=
  (Res.ofExcept s (s.mem.store s.cfg.memLimitBytes o b)).andThen fun m s => .ok () (s.withMem m)

/-- 49_optional_extensions.md R282: grow for `n > 0` bytes at `d`, then copy; `n = 0` does nothing. -/
def copyCode (d o n : Nat) (s : State) : Res Unit :=
  if n = 0 then .ok () s
  else
    (Res.ofExcept s (s.mem.grow s.cfg.memLimitBytes d n)).andThen fun g s =>
      .ok () (s.withMem (g.writeBytes d (codeRange s.code o n)))

/-- 48_return.md R270, R271: the capacity check, then the range read. -/
def captureRange (o n : Word) (s : State) : Res (List Byte) :=
  if n.toNat > s.cfg.retLimitBytes then .raised (.invalidMemoryAccess o.toNat (some n.toNat)) s
  else Res.ofExcept s (s.mem.loadRange o.toNat n.toNat)

/-! ## Control -/

/-- 47_control_flow.md R245: validate against `JD`, then write pc. The whole 256-bit target counts. -/
def jumpTo (t : Word) (s : State) : Res Unit :=
  if t.toNat ∈ s.jd then .ok () (s.withPc t.toNat) else .raised (.invalidJumpDestination t) s

/-- 42_push.md R161: `readCode(n)` over the immediate bytes the decoder found present; pc moves by
`n` even when fewer are there. -/
def readCode (n : Nat) (present : List Byte) (s : State) : Res Nat :=
  .ok (immediateValue s.cfg.truncPushMode n present) (s.withPc (s.pc + n))

/-! ## The start of a run -/

/-- R340: a fresh context over the request's code. Only the parameters stay (R341); `later` is what the
environment presents after it. -/
def State.start (cfg : Config) (r : RunRequest) (later : List RunRequest) : State where
  cfg := cfg
  code := r.code
  pc := 0
  stack := []
  mem := Memory.empty
  halted := false
  returndata := []
  jd := jumpdests r.code
  steps := 0
  runState := .running
  fault := none
  hasBudget := r.hasBudget
  maxSteps := r.maxSteps
  extStop := r.extStop
  requests := later

end Sys2Proof.Machine
end

