-- ==== Sys2Proof/Machine/Arithmetic.lean ====
section
/-! DEFINITION. ADD, MUL, SUB (spec/43_arithmetic.md) and the optional DIV (spec/49_optional_extensions.md R280). -/

namespace Sys2Proof.Machine

/-- R174: the binary pattern: `a` is the first Word popped, `b` the second. -/
def binary (f : Word → Word → Word) (s : State) : Res Unit :=
  (pop s).andThen fun a s => (pop s).andThen fun b s => pushWord (f a b) s

/-- R171: `(a + b) mod 2^256`. -/
def execAdd (s : State) : Host.Outcome State Fault Refusal :=
  (binary (fun a b => a + b) s).outcome

/-- R172: `(a * b) mod 2^256`. -/
def execMul (s : State) : Host.Outcome State Fault Refusal :=
  (binary (fun a b => a * b) s).outcome

/-- R173: `(a - b) mod 2^256`. -/
def execSub (s : State) : Host.Outcome State Fault Refusal :=
  (binary (fun a b => a - b) s).outcome

/-- R280: `0 if b = 0 else floor(a / b)`, unsigned. Decode gives DIV only to a build with `EXT_DIV`. -/
def execDiv (s : State) : Host.Outcome State Fault Refusal :=
  (binary (fun a b => if b = 0 then 0 else BitVec.ofNat 256 (a.toNat / b.toNat)) s).outcome

end Sys2Proof.Machine
end

