-- ==== Sys2Proof/Machine/Comparison.lean ====
section
/-! DEFINITION. LT, GT, SLT, SGT, EQ, ISZERO (spec/44_comparison.md). -/

namespace Sys2Proof.Machine

/-- R191: unsigned less-than. -/
def execLt (s : State) : Host.Outcome State Fault Refusal :=
  (binary (fun a b => boolWord (decide (a.toNat < b.toNat))) s).outcome

/-- R192: unsigned greater-than. -/
def execGt (s : State) : Host.Outcome State Fault Refusal :=
  (binary (fun a b => boolWord (decide (a.toNat > b.toNat))) s).outcome

/-- R193: signed less-than. -/
def execSlt (s : State) : Host.Outcome State Fault Refusal :=
  (binary (fun a b => boolWord (decide (signed a < signed b))) s).outcome

/-- R194: signed greater-than. -/
def execSgt (s : State) : Host.Outcome State Fault Refusal :=
  (binary (fun a b => boolWord (decide (signed a > signed b))) s).outcome

/-- R195: equality on all 256 bits. -/
def execEq (s : State) : Host.Outcome State Fault Refusal :=
  (binary (fun a b => boolWord (a == b)) s).outcome

/-- R196: zero test, one operand. -/
def execIszero (s : State) : Host.Outcome State Fault Refusal :=
  ((pop s).andThen fun a s => pushWord (boolWord (a == 0)) s).outcome

end Sys2Proof.Machine
end

