-- ==== Sys2Proof/Machine/Control.lean ====
section
/-! DEFINITION. STOP (spec/41_stop.md), JUMPDEST, JUMP, JUMPI (spec/47_control_flow.md), RETURN (spec/48_return.md). -/

namespace Sys2Proof.Machine

/-- 41 R150: `halted <- true`; also the built-in STOP of decode (40 R123). -/
def execStop (s : State) : Host.Outcome State Fault Refusal :=
  (Res.ok () s.halt).outcome

/-- R244: a marker; nothing changes beyond decode's advance of pc. -/
def execJumpdest (s : State) : Host.Outcome State Fault Refusal :=
  (Res.ok () s).outcome

/-- R246, R247: pop, then validate, then write pc. -/
def execJump (s : State) : Host.Outcome State Fault Refusal :=
  ((pop s).andThen fun t s => jumpTo t s).outcome

/-- R248: pop target, pop condition; the target is validated only when the condition is not 0. -/
def execJumpi (s : State) : Host.Outcome State Fault Refusal :=
  ((pop s).andThen fun t s => (pop s).andThen fun c s =>
    if c ≠ 0 then jumpTo t s else .ok () s).outcome

/-- R270: pop offset, pop length, capture the range, halt. -/
def execReturn (s : State) : Host.Outcome State Fault Refusal :=
  ((pop s).andThen fun o s => (pop s).andThen fun n s =>
    (captureRange o n s).andThen fun r s => .ok () (s.withReturndata r).halt).outcome

end Sys2Proof.Machine
end

