-- ==== Sys2Proof/Machine/MemoryOps.lean ====
section
/-! DEFINITION. MSTORE8 (spec/46_memory_ops.md) and the optional CODECOPY (spec/49_optional_extensions.md R282). -/

namespace Sys2Proof.Machine

/-- R230: pop offset, pop value, store `value mod 256`. -/
def execMstore8 (s : State) : Host.Outcome State Fault Refusal :=
  ((pop s).andThen fun o s => (pop s).andThen fun v s =>
    storeByte o.toNat ((v.toNat % 256 : Nat) : Int) s).outcome

/-- R282: pop destination, pop code offset, pop size, copy. Decode gives CODECOPY only to a build with
`EXT_CODECOPY`. -/
def execCodecopy (s : State) : Host.Outcome State Fault Refusal :=
  ((pop s).andThen fun d s => (pop s).andThen fun o s => (pop s).andThen fun n s =>
    copyCode d.toNat o.toNat n.toNat s).outcome

end Sys2Proof.Machine
end

