-- ==== Sys2Proof/Machine/Push.lean ====
section
/-! DEFINITION. PUSH1 to PUSH32 (spec/42_push.md). -/

namespace Sys2Proof.Machine

/-- R160: `v <- readCode(n); push(v)`. -/
def pushImmediate (n : Nat) (imm : List Byte) (s : State) : Res Unit :=
  (readCode n imm s).andThen fun v s => push v s

/-- R400. -/
def execPush1 (imm : List Byte) (s : State) : Host.Outcome State Fault Refusal :=
  (pushImmediate 1 imm s).outcome

/-- R401. -/
def execPush2 (imm : List Byte) (s : State) : Host.Outcome State Fault Refusal :=
  (pushImmediate 2 imm s).outcome

/-- R402. -/
def execPush3 (imm : List Byte) (s : State) : Host.Outcome State Fault Refusal :=
  (pushImmediate 3 imm s).outcome

/-- R403. -/
def execPush4 (imm : List Byte) (s : State) : Host.Outcome State Fault Refusal :=
  (pushImmediate 4 imm s).outcome

/-- R404. -/
def execPush5 (imm : List Byte) (s : State) : Host.Outcome State Fault Refusal :=
  (pushImmediate 5 imm s).outcome

/-- R405. -/
def execPush6 (imm : List Byte) (s : State) : Host.Outcome State Fault Refusal :=
  (pushImmediate 6 imm s).outcome

/-- R406. -/
def execPush7 (imm : List Byte) (s : State) : Host.Outcome State Fault Refusal :=
  (pushImmediate 7 imm s).outcome

/-- R407. -/
def execPush8 (imm : List Byte) (s : State) : Host.Outcome State Fault Refusal :=
  (pushImmediate 8 imm s).outcome

/-- R408. -/
def execPush9 (imm : List Byte) (s : State) : Host.Outcome State Fault Refusal :=
  (pushImmediate 9 imm s).outcome

/-- R409. -/
def execPush10 (imm : List Byte) (s : State) : Host.Outcome State Fault Refusal :=
  (pushImmediate 10 imm s).outcome

/-- R410. -/
def execPush11 (imm : List Byte) (s : State) : Host.Outcome State Fault Refusal :=
  (pushImmediate 11 imm s).outcome

/-- R411. -/
def execPush12 (imm : List Byte) (s : State) : Host.Outcome State Fault Refusal :=
  (pushImmediate 12 imm s).outcome

/-- R412. -/
def execPush13 (imm : List Byte) (s : State) : Host.Outcome State Fault Refusal :=
  (pushImmediate 13 imm s).outcome

/-- R413. -/
def execPush14 (imm : List Byte) (s : State) : Host.Outcome State Fault Refusal :=
  (pushImmediate 14 imm s).outcome

/-- R414. -/
def execPush15 (imm : List Byte) (s : State) : Host.Outcome State Fault Refusal :=
  (pushImmediate 15 imm s).outcome

/-- R415. -/
def execPush16 (imm : List Byte) (s : State) : Host.Outcome State Fault Refusal :=
  (pushImmediate 16 imm s).outcome

/-- R416. -/
def execPush17 (imm : List Byte) (s : State) : Host.Outcome State Fault Refusal :=
  (pushImmediate 17 imm s).outcome

/-- R417. -/
def execPush18 (imm : List Byte) (s : State) : Host.Outcome State Fault Refusal :=
  (pushImmediate 18 imm s).outcome

/-- R418. -/
def execPush19 (imm : List Byte) (s : State) : Host.Outcome State Fault Refusal :=
  (pushImmediate 19 imm s).outcome

/-- R419. -/
def execPush20 (imm : List Byte) (s : State) : Host.Outcome State Fault Refusal :=
  (pushImmediate 20 imm s).outcome

/-- R420. -/
def execPush21 (imm : List Byte) (s : State) : Host.Outcome State Fault Refusal :=
  (pushImmediate 21 imm s).outcome

/-- R421. -/
def execPush22 (imm : List Byte) (s : State) : Host.Outcome State Fault Refusal :=
  (pushImmediate 22 imm s).outcome

/-- R422. -/
def execPush23 (imm : List Byte) (s : State) : Host.Outcome State Fault Refusal :=
  (pushImmediate 23 imm s).outcome

/-- R423. -/
def execPush24 (imm : List Byte) (s : State) : Host.Outcome State Fault Refusal :=
  (pushImmediate 24 imm s).outcome

/-- R424. -/
def execPush25 (imm : List Byte) (s : State) : Host.Outcome State Fault Refusal :=
  (pushImmediate 25 imm s).outcome

/-- R425. -/
def execPush26 (imm : List Byte) (s : State) : Host.Outcome State Fault Refusal :=
  (pushImmediate 26 imm s).outcome

/-- R426. -/
def execPush27 (imm : List Byte) (s : State) : Host.Outcome State Fault Refusal :=
  (pushImmediate 27 imm s).outcome

/-- R427. -/
def execPush28 (imm : List Byte) (s : State) : Host.Outcome State Fault Refusal :=
  (pushImmediate 28 imm s).outcome

/-- R428. -/
def execPush29 (imm : List Byte) (s : State) : Host.Outcome State Fault Refusal :=
  (pushImmediate 29 imm s).outcome

/-- R429. -/
def execPush30 (imm : List Byte) (s : State) : Host.Outcome State Fault Refusal :=
  (pushImmediate 30 imm s).outcome

/-- R430. -/
def execPush31 (imm : List Byte) (s : State) : Host.Outcome State Fault Refusal :=
  (pushImmediate 31 imm s).outcome

/-- R431. -/
def execPush32 (imm : List Byte) (s : State) : Host.Outcome State Fault Refusal :=
  (pushImmediate 32 imm s).outcome

end Sys2Proof.Machine
end

