-- ==== Sys2Proof/Machine/StackOps.lean ====
section
/-! DEFINITION. DUP1 to DUP16 and SWAP1 to SWAP16 (spec/45_stack_ops.md). -/

namespace Sys2Proof.Machine

/-- R210: `v <- peek(n - 1); push(v)`. -/
def dup (n : Nat) (s : State) : Res Unit :=
  (peek (n - 1) s).andThen fun v s => pushWord v s

/-- R440. -/
def execDup1 (s : State) : Host.Outcome State Fault Refusal :=
  (dup 1 s).outcome

/-- R441. -/
def execDup2 (s : State) : Host.Outcome State Fault Refusal :=
  (dup 2 s).outcome

/-- R442. -/
def execDup3 (s : State) : Host.Outcome State Fault Refusal :=
  (dup 3 s).outcome

/-- R443. -/
def execDup4 (s : State) : Host.Outcome State Fault Refusal :=
  (dup 4 s).outcome

/-- R444. -/
def execDup5 (s : State) : Host.Outcome State Fault Refusal :=
  (dup 5 s).outcome

/-- R445. -/
def execDup6 (s : State) : Host.Outcome State Fault Refusal :=
  (dup 6 s).outcome

/-- R446. -/
def execDup7 (s : State) : Host.Outcome State Fault Refusal :=
  (dup 7 s).outcome

/-- R447. -/
def execDup8 (s : State) : Host.Outcome State Fault Refusal :=
  (dup 8 s).outcome

/-- R448. -/
def execDup9 (s : State) : Host.Outcome State Fault Refusal :=
  (dup 9 s).outcome

/-- R449. -/
def execDup10 (s : State) : Host.Outcome State Fault Refusal :=
  (dup 10 s).outcome

/-- R450. -/
def execDup11 (s : State) : Host.Outcome State Fault Refusal :=
  (dup 11 s).outcome

/-- R451. -/
def execDup12 (s : State) : Host.Outcome State Fault Refusal :=
  (dup 12 s).outcome

/-- R452. -/
def execDup13 (s : State) : Host.Outcome State Fault Refusal :=
  (dup 13 s).outcome

/-- R453. -/
def execDup14 (s : State) : Host.Outcome State Fault Refusal :=
  (dup 14 s).outcome

/-- R454. -/
def execDup15 (s : State) : Host.Outcome State Fault Refusal :=
  (dup 15 s).outcome

/-- R455. -/
def execDup16 (s : State) : Host.Outcome State Fault Refusal :=
  (dup 16 s).outcome

/-- R460, R213. -/
def execSwap1 (s : State) : Host.Outcome State Fault Refusal :=
  (swap 1 s).outcome

/-- R461, R213. -/
def execSwap2 (s : State) : Host.Outcome State Fault Refusal :=
  (swap 2 s).outcome

/-- R462, R213. -/
def execSwap3 (s : State) : Host.Outcome State Fault Refusal :=
  (swap 3 s).outcome

/-- R463, R213. -/
def execSwap4 (s : State) : Host.Outcome State Fault Refusal :=
  (swap 4 s).outcome

/-- R464, R213. -/
def execSwap5 (s : State) : Host.Outcome State Fault Refusal :=
  (swap 5 s).outcome

/-- R465, R213. -/
def execSwap6 (s : State) : Host.Outcome State Fault Refusal :=
  (swap 6 s).outcome

/-- R466, R213. -/
def execSwap7 (s : State) : Host.Outcome State Fault Refusal :=
  (swap 7 s).outcome

/-- R467, R213. -/
def execSwap8 (s : State) : Host.Outcome State Fault Refusal :=
  (swap 8 s).outcome

/-- R468, R213. -/
def execSwap9 (s : State) : Host.Outcome State Fault Refusal :=
  (swap 9 s).outcome

/-- R469, R213. -/
def execSwap10 (s : State) : Host.Outcome State Fault Refusal :=
  (swap 10 s).outcome

/-- R470, R213. -/
def execSwap11 (s : State) : Host.Outcome State Fault Refusal :=
  (swap 11 s).outcome

/-- R471, R213. -/
def execSwap12 (s : State) : Host.Outcome State Fault Refusal :=
  (swap 12 s).outcome

/-- R472, R213. -/
def execSwap13 (s : State) : Host.Outcome State Fault Refusal :=
  (swap 13 s).outcome

/-- R473, R213. -/
def execSwap14 (s : State) : Host.Outcome State Fault Refusal :=
  (swap 14 s).outcome

/-- R474, R213. -/
def execSwap15 (s : State) : Host.Outcome State Fault Refusal :=
  (swap 15 s).outcome

/-- R475, R213. -/
def execSwap16 (s : State) : Host.Outcome State Fault Refusal :=
  (swap 16 s).outcome

end Sys2Proof.Machine
end

