-- ==== Sys2Proof/Machine/Runner.lean ====
section
/-! DEFINITION. The Runner's part of a step outside the instruction (spec/40_dispatch_and_runner.md R120 to R134):
the halted test, the poll, the step count, decode, what follows a terminal state, and how the host's
word is placed where decode reads. -/

namespace Sys2Proof.Machine

/-- 60_exceptions.md R320: the sample of `ext_stop` that the coming poll reads; 0 where none is listed (log 5). -/
def State.stopSample (s : State) : Bool :=
  s.extStop.headD false

/-- R130: `(has_budget and steps >= max_steps) or ext_stop`. -/
def State.limitReached (s : State) : Bool :=
  (s.hasBudget && decide (s.steps ≥ s.maxSteps)) || s.stopSample

/-- The poll takes its sample of `ext_stop` (R320: a level that is not latched). -/
def State.afterPoll (s : State) : State :=
  { s with extStop := s.extStop.tail }

/-- R130: `steps <- steps + 1`, after the poll. -/
def State.counted (s : State) : State :=
  { s.afterPoll with steps := s.steps + 1 }

/-- R301: the `limit` payload of ExecutionLimitReached, absent when there is no budget. -/
def State.limit (s : State) : Option Nat :=
  if s.hasBudget then some s.maxSteps else none

/-- R120 to R123: decode the instruction at pc. Step 1 cannot raise for a natural pc (R121); a pc at or
past the end of code is the built-in STOP and does not move (R123); otherwise pc moves past the opcode
byte BEFORE the lookup, so that UnknownOpcode carries the byte's offset and pc holds one more (R122). -/
def fetchDecode (s : State) : Res Instr :=
  if (s.pc : Int) < 0 then .raised (.invalidCodeOffset s.pc) s
  else
    match decodeFor s.cfg (s.code.drop s.pc) with
    | .error .noByte => .ok .stop s
    | .error (.unknownOpcode op) => .raised (.unknownOpcode op s.pc) (s.withPc (s.pc + 1))
    | .ok i => .ok i (s.withPc (s.pc + 1))

/-- What a running state's iteration comes to before an instruction executes. -/
inductive Polled where
  /-- The iteration is over. -/
  | over (s : State)
  /-- Decode returned an instruction, to execute in this state. -/
  | dispatch (i : Instr) (s : State)

/-- R130, up to `execute(ins)`, in the order of R313. -/
def State.poll (s : State) : Polled :=
  if s.halted then .over { s with runState := .haltedSuccess }
  else if s.limitReached then .over (s.afterPoll.takeError (.executionLimitReached s.limit s.steps))
  else
    match fetchDecode s.counted with
    | .raised e t => .over (t.takeError e)
    | .ok i t => .dispatch i t

/-- R134, R312: a terminal state is left only by a `start`; with none presented there is no step. A
request with code longer than `CODE_MAX_LEN` has no run (R343). -/
def State.idle (s : State) : Host.Outcome State Fault Refusal :=
  match s.requests with
  | [] => .fault .runEnded
  | r :: later =>
    if r.code.length ≤ s.cfg.codeMaxLen then .next (State.start s.cfg r later)
    else .refused (.codeTooLong r.code.length)

/-- The code buffer with `bytes` at offset `p`, filled with zero bytes up to `p` where it ends earlier. -/
def placeBytes (code : List Byte) (p : Nat) (bytes : List Byte) : List Byte :=
  (code ++ List.replicate (p - code.length) 0).take p ++ bytes ++ code.drop (p + bytes.length)

/-- A running state whose next poll passes and whose decode reads `bytes` (log 4): the code buffer holds
them at pc and `JD` is its set (R36); the run is running and not halted, its budget is not spent at this
poll, the sample of this poll is 0, and the build has the extension that the byte belongs to. DESIGN CHOICE
(log 4): `codeMaxLen` stays as it was and nothing bounds the buffer, so the state may hold code longer than
`CODE_MAX_LEN`, for which R343 defines no run; `step` executes it all the same. -/
def State.loadAtPc (s : State) (bytes : List Byte) : State :=
  { s with
    code := placeBytes s.code s.pc bytes
    jd := jumpdests (placeBytes s.code s.pc bytes)
    runState := .running
    halted := false
    maxSteps := if s.hasBudget then max s.maxSteps (s.steps + 1) else s.maxSteps
    extStop := s.extStop.set 0 false
    cfg := { s.cfg with
      extDiv := s.cfg.extDiv || bytes.headD 0 == 0x04
      extCodecopy := s.cfg.extCodecopy || bytes.headD 0 == 0x39 } }

end Sys2Proof.Machine
end

