-- ==== Sys2Proof/Machine/Step.lean ====
section
/-! DEFINITION. One iteration of the Runner's loop (spec/40_dispatch_and_runner.md R130, R134), and the host's way to
place an instruction. -/

namespace Sys2Proof.Machine

/-- R130 while running; R134 in a terminal state. -/
def step (s : State) : Host.Outcome State Fault Refusal :=
  match s.runState with
  | .running =>
    match s.poll with
    | .over t => .next t
    | .dispatch i t => exec i t
  | .haltedSuccess => s.idle
  | .haltedFailure => s.idle
  | .stepLimitExceeded => s.idle

/-- The host's load of one instruction word (log 4): the code buffer is what a `start` loads from outside
(70_reset_and_hazards.md R343), and this stands for that load. -/
def State.withFetchWord (s : State) (nbits w : Nat) : State :=
  s.loadAtPc (tableBytes nbits w)

end Sys2Proof.Machine
end

