-- ==== Sys2Proof/Machine/Outputs.lean ====
section
/-! DEFINITION. The output side of the interface (spec/10_state.md R38, R50, R51, 60_exceptions.md R300), as views of
the state. -/

namespace Sys2Proof.Machine

/-- R38: `run_state` as 2 bits. -/
def RunState.code : RunState → BitVec 2
  | .running => 0
  | .haltedSuccess => 1
  | .haltedFailure => 2
  | .stepLimitExceeded => 3

/-- R300: the reason code of an error kind, 4 bits. -/
def ErrorInfo.code : ErrorInfo → BitVec 4
  | .invalidStackItem _ => 1
  | .stackOverflow _ => 2
  | .stackUnderflow _ _ => 3
  | .invalidMemoryAccess _ _ => 4
  | .invalidMemoryValue _ => 5
  | .invalidCodeOffset _ => 6
  | .unknownOpcode _ _ => 7
  | .invalidJumpDestination _ => 8
  | .executionLimitReached _ _ => 9

/-- R50: the outputs that are defined in a terminal state. -/
structure RunResult where
  runState : BitVec 2
  success : Bool
  reason : BitVec 4
  faultInfo : Option ErrorInfo
  finalPc : Nat
  returndata : List Byte
  activeWords : Nat
  steps : Nat
  deriving DecidableEq, Repr

/-- R50: `reason`, 0 when there is no error. -/
def State.reason (s : State) : BitVec 4 :=
  match s.fault with
  | none => 0
  | some e => e.code

/-- 20_memory.md R67: `len(M) / 32`. -/
def Memory.activeWords (m : Memory) : Nat :=
  m.len / wordBytes

/-- R51: the result record of a terminal state; none while running (93 U7: the outputs are then not defined). -/
def State.result (s : State) : Option RunResult :=
  match s.runState with
  | .running => none
  | .haltedSuccess | .haltedFailure | .stepLimitExceeded => some
    { runState := s.runState.code
      success := decide (s.runState = .haltedSuccess)
      reason := s.reason
      faultInfo := s.fault
      finalPc := s.pc
      returndata := s.returndata
      activeWords := s.mem.activeWords
      steps := s.steps }

end Sys2Proof.Machine
end

