-- ==== Sys2Proof/Safety.lean ====
section
/-! DEFINITION. What a good state and a good run are, and the words in which the statements are put. -/

namespace Sys2Proof.Machine

/-! ## Invariants -/

/-- What every state of a run satisfies: the ranges of spec/10_state.md R20, R21, R31, R34 and
20_memory.md R60, `JD` (R36), and how `run_state`, `halted`, `fault` and `returndata` go together (R33, R34,
R38, R39, R51). -/
structure State.Inv (s : State) : Prop where
  cfgWf : s.cfg.wf = true
  codeBounded : s.code.length ≤ s.cfg.codeMaxLen
  pcBounded : s.pc ≤ s.code.length + 32
  stackBounded : s.stack.length ≤ s.cfg.stackDepth
  memWf : s.mem.wf = true
  memBounded : s.mem.len ≤ s.cfg.memLimitBytes
  returndataBounded : s.returndata.length ≤ s.cfg.retLimitBytes
  jdIsJumpdests : s.jd = jumpdests s.code
  returndataWhenHalted : s.halted = false → s.returndata = []
  haltedNotFailed : s.halted = true → s.runState = .running ∨ s.runState = .haltedSuccess
  noFaultUnlessEnded : s.runState = .running ∨ s.runState = .haltedSuccess → s.fault = none
  successIsHalted : s.runState = .haltedSuccess → s.halted = true
  failureHasFault : s.runState = .haltedFailure → ∃ e, s.fault = some e ∧ e.endState = .haltedFailure
  limitHasFault : s.runState = .stepLimitExceeded →
    ∃ limit n, s.fault = some (.executionLimitReached limit n)
  budgetKept : s.hasBudget = true → s.steps ≤ s.maxSteps

/-- 30_encoding.md R92, R99, R101: the offsets at which an instruction starts, from offset 0 on, each
found from the one before by its length; the last one may lie at or past the end of code. -/
inductive InstructionStart (code : List Byte) : Nat → Prop where
  | entry : InstructionStart code 0
  | next (p : Nat) (b : Byte) : InstructionStart code p → code[p]? = some b →
      InstructionStart code (p + opcodeLength b)

/-- R99: pc stands at an instruction start, so no byte of a PUSH immediate is decoded. -/
def State.PcAtStart (s : State) : Prop :=
  s.jd = jumpdests s.code ∧ InstructionStart s.code s.pc

/-! ## Words for the statements -/

/-- 40_dispatch_and_runner.md R130: the states in which the Runner decodes an instruction. -/
def State.Ready (s : State) : Prop :=
  s.runState = .running ∧ s.halted = false ∧ s.limitReached = false

/-- 30_encoding.md R97: the bytes that are not assigned, by the ranges the rule lists. -/
def Unassigned (cfg : Config) (op : Byte) : Prop :=
  (0x05 ≤ op.toNat ∧ op.toNat ≤ 0x0F) ∨ (0x16 ≤ op.toNat ∧ op.toNat ≤ 0x38) ∨
  (0x3A ≤ op.toNat ∧ op.toNat ≤ 0x52) ∨ op.toNat = 0x54 ∨ op.toNat = 0x55 ∨
  (0x58 ≤ op.toNat ∧ op.toNat ≤ 0x5A) ∨ (0x5C ≤ op.toNat ∧ op.toNat ≤ 0x5F) ∨
  (0xA0 ≤ op.toNat ∧ op.toNat ≤ 0xF2) ∨ (0xF4 ≤ op.toNat) ∨
  (op.toNat = 0x04 ∧ cfg.extDiv = false) ∨ (op.toNat = 0x39 ∧ cfg.extCodecopy = false)

/-- The state an instruction leaves when it raises `e`, its other effects being in `s` (60_exceptions.md R310). -/
def State.failedWith (s : State) (e : ErrorInfo) : State :=
  { s with fault := some e, runState := .haltedFailure }

/-- 43_arithmetic.md R174: an instruction that pops `a`, then `b`, and pushes `f a b`; with fewer than two
Words the failing pop raises StackUnderflow and the Words popped before are gone. The bound on the depth
is the stack's own (10_state.md R21). -/
def BinaryInstr (i : Instr) (f : Word → Word → Word) : Prop :=
  (∀ (s : State) (a b : Word) (rest : List Word), s.stack = a :: b :: rest →
    s.stack.length ≤ s.cfg.stackDepth → exec i s = .next { s with stack := f a b :: rest }) ∧
  (∀ s : State, s.stack = [] → exec i s = .next (s.failedWith (.stackUnderflow 1 0))) ∧
  (∀ (s : State) (a : Word), s.stack = [a] →
    exec i s = .next ({ s with stack := [] }.failedWith (.stackUnderflow 1 0)))

/-- 20_memory.md R68: one store of a sequence. -/
inductive StoreOp where
  | byte (offset : Nat) (value : Byte)
  | word (offset : Nat) (value : Word)
  deriving DecidableEq, Repr

/-- R68: the last byte a store writes. -/
def StoreOp.lastByte : StoreOp → Nat
  | .byte o _ => o
  | .word o _ => o + 31

/-- R66: one store on a memory of capacity `limit`. -/
def StoreOp.run (limit : Nat) (m : Memory) : StoreOp → Except ErrorInfo Memory
  | .byte o b => m.store limit o b.toNat
  | .word o v => m.storeWord limit o v

/-- A sequence of stores, none of which may raise. -/
def runStores (limit : Nat) (m : Memory) : List StoreOp → Except ErrorInfo Memory
  | [] => .ok m
  | op :: ops =>
    match op.run limit m with
    | .error e => .error e
    | .ok m' => runStores limit m' ops

end Sys2Proof.Machine
end

