-- ==== Sys2Proof/Certificates/Slice0/Obligations.lean ====
section
/-! DEFINITION. The statements for the provers. Each docstring names the rules it comes from, and the decision
of the spec (D<n> of spec/92_eei_decisions.md) or the log entry of notes/assumptions/ that a clause rests on.
Wherever a statement names an opcode byte, the range of a family's `n`, or which popped Word is `a`, that clause
is the spec's own general knowledge (its D1, D2, D3; log 13), and the extensions are its D16 and D24 (log 14). -/

open Sys2Proof Sys2Proof.Machine

/-! ## Encoding -/

/-- spec/30_encoding.md R91, R93, R95, R96: every complete instruction decodes from its bytes whatever follows;
a well-formed one, a truncated PUSH too, decodes where the code ends after it. -/
def Obligations.DecodeInvertsEncode : Prop :=
  (∀ (i : Instr) (rest : List Byte), i.complete = true → decode (encode i ++ rest) = .ok i) ∧
  (∀ i : Instr, i.wellFormed = true → decode (encode i) = .ok i)

/-- R90, R91, R95: what decodes is well-formed, and its encoding is what it was decoded from; bytes follow it
only when it is complete. -/
def Obligations.EncodeInvertsDecode : Prop :=
  ∀ (bytes : List Byte) (i : Instr), decode bytes = .ok i →
    i.wellFormed = true ∧
    ∃ rest, bytes = encode i ++ rest ∧ (rest ≠ [] → i.complete = true)

/-- R95: bytes written out from the opcode map, one or more of each family. -/
def Obligations.SpecBytesDecode : Prop :=
  decode [0x00] = .ok .stop ∧ decode [0x01] = .ok .add ∧ decode [0x04] = .ok .div ∧
  decode [0x13] = .ok .sgt ∧ decode [0x39] = .ok .codecopy ∧ decode [0x53] = .ok .mstore8 ∧
  decode [0x57] = .ok .jumpi ∧ decode [0x5B] = .ok .jumpdest ∧ decode [0x60, 0x2A] = .ok (.push1 [0x2A]) ∧
  decode [0x61, 0x12, 0x34, 0x00] = .ok (.push2 [0x12, 0x34]) ∧ decode [0x7F] = .ok (.push32 []) ∧
  decode [0x82] = .ok .dup3 ∧ decode [0x9F] = .ok .swap16 ∧ decode [0xF3] = .ok .ret

/-- R92: the length is told from the opcode byte alone, `1 + n` for PUSHn (also a truncated one) and 1 for every
other byte, unknown ones included. The byte of PUSHn is log 13, the list of unknown bytes the spec's inference
(R97). -/
def Obligations.LengthFromOpcodeByte : Prop :=
  (∀ (i : Instr) (op : Byte) (imm : List Byte), encode i = op :: imm →
    (∀ n bs, i.pushForm = some (n, bs) → op.toNat = 0x60 + (n - 1) ∧ opcodeLength op = 1 + n) ∧
    (i.pushForm = none → opcodeLength op = 1)) ∧
  (∀ (cfg : Config) (op : Byte), Unassigned cfg op → opcodeLength op = 1)

/-- R97 (its list is the spec's inference from the opcode map, log 13): a byte decodes for a build exactly when
it is not one of the unassigned values listed, and decoding an unassigned one raises UnknownOpcode with the byte
and its offset. -/
def Obligations.UnassignedBytesAreUnknownOpcodes : Prop :=
  (∀ (cfg : Config) (op : Byte) (rest : List Byte),
    (∃ i, decodeFor cfg (op :: rest) = .ok i) ↔ ¬ Unassigned cfg op) ∧
  (∀ (s : State) (op : Byte), s.code[s.pc]? = some op → Unassigned s.cfg op →
    fetchDecode s = .raised (.unknownOpcode op s.pc) { s with pc := s.pc + 1 })

/-- 40_dispatch_and_runner.md R122: with a byte at pc, pc moves past it before the lookup; an assigned byte
gives its instruction, an unassigned one raises with the payload pc at the byte (the spec's D9). -/
def Obligations.DecodeAdvancesPcBeforeLookup : Prop :=
  ∀ (s : State) (op : Byte), s.code[s.pc]? = some op →
    (Unassigned s.cfg op →
      fetchDecode s = .raised (.unknownOpcode op s.pc) { s with pc := s.pc + 1 }) ∧
    (¬ Unassigned s.cfg op → ∃ i imm, encode i = op :: imm ∧
      decodeFor s.cfg (s.code.drop s.pc) = .ok i ∧ fetchDecode s = .ok i { s with pc := s.pc + 1 })

/-- 00_scope.md R13: `be` is the sum of the rule, and `be_bytes_n(v)` is the unique `n`-byte sequence with that
value. -/
def Obligations.BigEndianIntegers : Prop :=
  (∀ s : List Byte,
    be s = ((List.range s.length).map fun i => (s.getD i 0).toNat * 256 ^ (s.length - 1 - i)).sum) ∧
  (∀ n v : Nat, v < 256 ^ n → (beBytes n v).length = n ∧ be (beBytes n v) = v ∧
    ∀ s : List Byte, s.length = n → be s = v → s = beBytes n v)

/-- 30_encoding.md R100: PUSHn with a literal in range assembles to bytes that decode to PUSHn with that value;
a literal out of range does not assemble. -/
def Obligations.PushLiteralAssembles : Prop :=
  ∀ p ∈ Instr.pushFamily, ∀ v : Nat,
    (v < 256 ^ p.1 → ∃ bytes imm, assemblePush p.1 v = some bytes ∧ decode bytes = .ok (p.2 imm) ∧
      imm.length = p.1 ∧ be imm = v) ∧
    (256 ^ p.1 ≤ v → assemblePush p.1 v = none)

/-- R101: for code that decodes, disassembly inverts assembly. -/
def Obligations.DisassembleInvertsAssemble : Prop :=
  ∀ (cfg : Config) (program : List Instr),
    (∀ i ∈ program, i.complete = true ∧ i.present cfg = true) →
    (disassemble cfg (assemble program)).map (fun line => line.2) = program.map ListingItem.instr

/-- R101: disassembly visits exactly the instruction starts inside the code, and at each it shows what decodes
there, or the byte as data (for a truncated PUSH, the bytes that are present: log 22). -/
def Obligations.DisassemblyVisitsInstructionStarts : Prop :=
  ∀ (cfg : Config) (code : List Byte),
    (∀ p, (∃ item, (p, item) ∈ disassemble cfg code) ↔ InstructionStart code p ∧ p < code.length) ∧
    (∀ p item, (p, item) ∈ disassemble cfg code →
      (∀ i, decodeFor cfg (code.drop p) = .ok i → item = .instr i) ∧
      (∀ op, decodeFor cfg (code.drop p) = .error (.unknownOpcode op) →
        code[p]? = some op ∧ item = .data op))

/-! ## The Word Stack -/

/-- 10_state.md R22: the two checks in order (the spec's D17), neither changing the stack, then the push. -/
def Obligations.PushPrimitive : Prop :=
  ∀ (v : Int) (s : State),
    (v < 0 ∨ v > 2 ^ 256 - 1 → push v s = .raised (.invalidStackItem v) s) ∧
    (0 ≤ v → v ≤ 2 ^ 256 - 1 → s.stack.length = s.cfg.stackDepth →
      push v s = .raised (.stackOverflow s.stack.length) s) ∧
    (0 ≤ v → v ≤ 2 ^ 256 - 1 → s.stack.length ≠ s.cfg.stackDepth →
      ∃ w : Word, (w.toNat : Int) = v ∧ push v s = .ok () { s with stack := w :: s.stack })

/-- R23, R24: `pop` and `peek`. -/
def Obligations.PopAndPeekPrimitives : Prop :=
  (∀ s : State, s.stack = [] → pop s = .raised (.stackUnderflow 1 0) s) ∧
  (∀ (s : State) (v : Word) (rest : List Word), s.stack = v :: rest →
    pop s = .ok v { s with stack := rest }) ∧
  (∀ (i : Nat) (s : State), s.stack.length < i + 1 →
    peek i s = .raised (.stackUnderflow (i + 1) s.stack.length) s) ∧
  (∀ (i : Nat) (s : State) (v : Word), s.stack[i]? = some v → peek i s = .ok v s)

/-- R25: `swap(i)` exchanges `x[0]` and `x[i]` and nothing else; the depth check is made for every `i`, and
`swap(0)` on a stack that passes it changes nothing (the check at 0 is the spec's D17). -/
def Obligations.SwapPrimitive : Prop :=
  ∀ (i : Nat) (s : State),
    (s.stack.length < i + 1 → swap i s = .raised (.stackUnderflow (i + 1) s.stack.length) s) ∧
    (i + 1 ≤ s.stack.length → ∃ S' : List Word,
      swap i s = .ok () { s with stack := S' } ∧ S'.length = s.stack.length ∧
      S'[0]? = s.stack[i]? ∧ S'[i]? = s.stack[0]? ∧
      (∀ j, j ≠ 0 → j ≠ i → S'[j]? = s.stack[j]?) ∧ (i = 0 → S' = s.stack))

/-! ## The Byte Memory -/

/-- 20_memory.md R63, with the check of R61: `load`; a byte at or past `len(M)` reads 0. -/
def Obligations.LoadPrimitive : Prop :=
  ∀ (m : Memory) (o : Int),
    (o < 0 ∨ o > 2 ^ 256 - 1 → checkMem o = .error (.invalidMemoryAccess o none) ∧
      m.load o = .error (.invalidMemoryAccess o none)) ∧
    (0 ≤ o → o ≤ 2 ^ 256 - 1 → checkMem o = .ok () ∧ m.load o = .ok (m.byteAt o.toNat)) ∧
    (0 ≤ o → o ≤ 2 ^ 256 - 1 → o ≥ m.len → m.load o = .ok 0)

/-- R64: `loadRange` reads each position through `load`: offset and length are checked, a range that reaches
past the largest offset fails at `2^256` (the spec's inference), and otherwise `n` bytes come back, zero past
the end. -/
def Obligations.LoadRangePrimitive : Prop :=
  ∀ (m : Memory) (o n : Int),
    (o < 0 ∨ o > 2 ^ 256 - 1 → m.loadRange o n = .error (.invalidMemoryAccess o none)) ∧
    (0 ≤ o → o ≤ 2 ^ 256 - 1 → (n < 0 ∨ n > 2 ^ 256 - 1) →
      m.loadRange o n = .error (.invalidMemoryAccess n none)) ∧
    (0 ≤ o → o ≤ 2 ^ 256 - 1 → 0 < n → n ≤ 2 ^ 256 - 1 → o + n > 2 ^ 256 →
      m.loadRange o n = .error (.invalidMemoryAccess (2 ^ 256) none)) ∧
    (0 ≤ o → o ≤ 2 ^ 256 - 1 → 0 ≤ n → n ≤ 2 ^ 256 - 1 → (n = 0 ∨ o + n ≤ 2 ^ 256) →
      m.loadRange o n = .ok ((List.range n.toNat).map fun i => m.byteAt (o.toNat + i)))

/-- R66: `store`: the checks in the order offset, value (the spec's D17), capacity (D10); then memory has grown
by the formula, the byte is written, and every other byte reads as before. -/
def Obligations.StorePrimitive : Prop :=
  ∀ (m : Memory) (limit : Nat) (o b : Int), m.wf = true →
    (o < 0 ∨ o > 2 ^ 256 - 1 → m.store limit o b = .error (.invalidMemoryAccess o none)) ∧
    (0 ≤ o → o ≤ 2 ^ 256 - 1 → (b < 0 ∨ b > 255) → m.store limit o b = .error (.invalidMemoryValue b)) ∧
    (0 ≤ o → o ≤ 2 ^ 256 - 1 → 0 ≤ b → b ≤ 255 →
      32 * max m.words ((o.toNat + 1 + 31) / 32) > limit →
      m.store limit o b = .error (.invalidMemoryAccess o none)) ∧
    (0 ≤ o → o ≤ 2 ^ 256 - 1 → 0 ≤ b → b ≤ 255 →
      32 * max m.words ((o.toNat + 1 + 31) / 32) ≤ limit →
      ∃ g, m.store limit o b = .ok g ∧ g.words = max m.words ((o.toNat + 1 + 31) / 32) ∧
        ((g.byteAt o.toNat).toNat : Int) = b ∧ ∀ a, a ≠ o.toNat → g.byteAt a = m.byteAt a)

/-- R66, R72: `storeWord` grows by the same formula and writes 32 bytes big-endian: the byte at `o + i` is bits
`255 - 8i` to `248 - 8i` of the Word; every other byte reads as before. -/
def Obligations.StoreWordIsBigEndian : Prop :=
  ∀ (m : Memory) (limit : Nat) (o : Int) (v : Word), m.wf = true →
    (o < 0 ∨ o > 2 ^ 256 - 1 → m.storeWord limit o v = .error (.invalidMemoryAccess o none)) ∧
    (0 ≤ o → o ≤ 2 ^ 256 - 1 → 32 * max m.words ((o.toNat + 32 + 31) / 32) > limit →
      m.storeWord limit o v = .error (.invalidMemoryAccess o none)) ∧
    (0 ≤ o → o ≤ 2 ^ 256 - 1 → 32 * max m.words ((o.toNat + 32 + 31) / 32) ≤ limit →
      ∃ g, m.storeWord limit o v = .ok g ∧ g.words = max m.words ((o.toNat + 32 + 31) / 32) ∧
        (∀ i, i < 32 → g.byteAt (o.toNat + i) = v.extractLsb' (248 - 8 * i) 8) ∧
        (∀ a, (a < o.toNat ∨ o.toNat + 32 ≤ a) → g.byteAt a = m.byteAt a))

/-- R65, R72: a Word stored at `o` is the Word loaded from `o`; `loadWord` fails as `loadRange` does for `o >
2^256 - 32` (the spec's D22). -/
def Obligations.LoadWordAfterStoreWord : Prop :=
  (∀ (m g : Memory) (limit : Nat) (o : Int) (v : Word), m.wf = true → o ≤ 2 ^ 256 - 32 →
    m.storeWord limit o v = .ok g → g.loadWord o = .ok v) ∧
  (∀ (m : Memory) (o : Int), o ≤ 2 ^ 256 - 1 → o > 2 ^ 256 - 32 →
    m.loadWord o = .error (.invalidMemoryAccess (2 ^ 256) none))

/-- R68: after any sequence of stores on fresh memory, `active_words` is `ceil((t + 1) / 32)` for the highest
byte offset `t` written, 0 with no store; and no store makes it smaller. -/
def Obligations.ActiveWordsFollowStores : Prop :=
  (∀ (limit : Nat) (ops : List StoreOp) (m : Memory), runStores limit Memory.empty ops = .ok m →
    (ops = [] → m.activeWords = 0) ∧
    (∀ op ∈ ops, (∀ op' ∈ ops, op'.lastByte ≤ op.lastByte) →
      m.activeWords = (op.lastByte + 1 + 31) / 32)) ∧
  (∀ (limit : Nat) (ops : List StoreOp) (m m' : Memory), runStores limit m ops = .ok m' →
    m.activeWords ≤ m'.activeWords)

/-! ## The Jump Destination Analyzer -/

/-- 47_control_flow.md R241: the members of `jumpdests(code)` are the instruction starts that hold 0x5B, each
below `L`, and more turns of the scan than `L` find nothing further (the rule is the spec's inference from
R240). -/
def Obligations.JumpdestsAreMarkedInstructionStarts : Prop :=
  ∀ code : List Byte,
    (∀ t, t ∈ jumpdests code ↔ InstructionStart code t ∧ code[t]? = some 0x5B) ∧
    (∀ t ∈ jumpdests code, t < code.length) ∧
    (∀ fuel, code.length ≤ fuel → scanFrom code fuel 0 = jumpdests code)

/-! ## Instructions: results, completion, errors -/

/-- 43_arithmetic.md R171, R172, R173: ADD, MUL and SUB with their bytes, results modulo `2^256`, and
StackUnderflow. -/
def Obligations.AddMulSubResults : Prop :=
  decode [0x01] = .ok .add ∧ decode [0x02] = .ok .mul ∧ decode [0x03] = .ok .sub ∧
  BinaryInstr .add (fun a b => BitVec.ofNat 256 ((a.toNat + b.toNat) % 2 ^ 256)) ∧
  BinaryInstr .mul (fun a b => BitVec.ofNat 256 ((a.toNat * b.toNat) % 2 ^ 256)) ∧
  BinaryInstr .sub (fun a b => BitVec.ofInt 256 (((a.toNat : Int) - b.toNat) % 2 ^ 256))

/-- R170: the results of ADD, MUL and SUB are also the wrapped results under the signed view (the spec's general
knowledge). -/
def Obligations.ArithmeticWrapsSigned : Prop :=
  ∀ (s : State) (a b : Word) (rest : List Word), s.stack = a :: b :: rest →
    s.stack.length ≤ s.cfg.stackDepth → ∃ sum product difference : Word,
      exec .add s = .next { s with stack := sum :: rest } ∧
      exec .mul s = .next { s with stack := product :: rest } ∧
      exec .sub s = .next { s with stack := difference :: rest } ∧
      sum.toInt = (a.toInt + b.toInt).bmod (2 ^ 256) ∧
      product.toInt = (a.toInt * b.toInt).bmod (2 ^ 256) ∧
      difference.toInt = (a.toInt - b.toInt).bmod (2 ^ 256)

/-- 44_comparison.md R191 to R195: LT, GT, SLT, SGT and EQ with their bytes, results and StackUnderflow. -/
def Obligations.ComparisonResults : Prop :=
  decode [0x10] = .ok .lt ∧ decode [0x11] = .ok .gt ∧ decode [0x12] = .ok .slt ∧
  decode [0x13] = .ok .sgt ∧ decode [0x14] = .ok .eq ∧
  BinaryInstr .lt (fun a b => if a.toNat < b.toNat then 1 else 0) ∧
  BinaryInstr .gt (fun a b => if a.toNat > b.toNat then 1 else 0) ∧
  BinaryInstr .slt (fun a b => if a.toInt < b.toInt then 1 else 0) ∧
  BinaryInstr .sgt (fun a b => if a.toInt > b.toInt then 1 else 0) ∧
  BinaryInstr .eq (fun a b => if a.toNat = b.toNat then 1 else 0)

/-- R196: ISZERO. -/
def Obligations.IszeroResult : Prop :=
  decode [0x15] = .ok .iszero ∧
  (∀ (s : State) (a : Word) (rest : List Word), s.stack = a :: rest →
    s.stack.length ≤ s.cfg.stackDepth →
    exec .iszero s = .next { s with stack := (if a.toNat = 0 then 1 else 0) :: rest }) ∧
  (∀ s : State, s.stack = [] → exec .iszero s = .next (s.failedWith (.stackUnderflow 1 0)))

/-- 49_optional_extensions.md R280: DIV, present only with `EXT_DIV`. -/
def Obligations.DivResult : Prop :=
  (∀ (cfg : Config) (rest : List Byte), cfg.extDiv = true → decodeFor cfg (0x04 :: rest) = .ok .div) ∧
  BinaryInstr .div (fun a b => if b.toNat = 0 then 0 else BitVec.ofNat 256 (a.toNat / b.toNat))

/-- R281: the division law for a divisor that is not 0; and without `EXT_DIV` the byte is UnknownOpcode(0x04)
and no quotient is computed. -/
def Obligations.DivisionLaws : Prop :=
  (∀ (s : State) (a b : Word) (rest : List Word), s.stack = a :: b :: rest →
    s.stack.length ≤ s.cfg.stackDepth → b ≠ 0 → ∃ q : Word,
      exec .div s = .next { s with stack := q :: rest } ∧
      q.toNat * b.toNat + a.toNat % b.toNat = a.toNat ∧ a.toNat % b.toNat < b.toNat) ∧
  (∀ s : State, s.cfg.extDiv = false → s.code[s.pc]? = some 0x04 →
    fetchDecode s = .raised (.unknownOpcode 0x04 s.pc) { s with pc := s.pc + 1 })

/-- 42_push.md R160, R161: at a PUSHn byte decode gives PUSHn with the bytes that are present; it pushes their
big-endian value (by `TRUNC_PUSH_MODE` when bytes are missing, the spec's D5) and pc moves by `n`; a full stack
overflows with pc already moved. -/
def Obligations.PushResults : Prop :=
  ∀ p ∈ Instr.pushFamily,
    (∀ s : State, s.code[s.pc]? = some (BitVec.ofNat 8 (0x5F + p.1)) →
      fetchDecode s = .ok (p.2 ((s.code.drop (s.pc + 1)).take p.1)) { s with pc := s.pc + 1 }) ∧
    (∀ (s : State) (imm : List Byte), imm.length ≤ p.1 →
      (s.stack.length < s.cfg.stackDepth → ∃ v : Word,
        v.toNat = (match s.cfg.truncPushMode with
          | .presentBytes => be imm
          | .rightPad => be imm * 256 ^ (p.1 - imm.length)) ∧
        exec (p.2 imm) s = .next { s with pc := s.pc + p.1, stack := v :: s.stack }) ∧
      (s.stack.length = s.cfg.stackDepth →
        exec (p.2 imm) s = .next ({ s with pc := s.pc + p.1 }.failedWith
          (.stackOverflow s.cfg.stackDepth))))

/-- 45_stack_ops.md R210: DUPn with its byte, result, StackUnderflow, and StackOverflow behind it (the spec's
D17). -/
def Obligations.DupResults : Prop :=
  ∀ p ∈ Instr.dupFamily, decode [BitVec.ofNat 8 (0x7F + p.1)] = .ok p.2 ∧
    ∀ s : State,
      (∀ v, s.stack[p.1 - 1]? = some v → s.stack.length < s.cfg.stackDepth →
        exec p.2 s = .next { s with stack := v :: s.stack }) ∧
      (s.stack.length < p.1 →
        exec p.2 s = .next (s.failedWith (.stackUnderflow p.1 s.stack.length))) ∧
      (p.1 ≤ s.stack.length → s.stack.length = s.cfg.stackDepth →
        exec p.2 s = .next (s.failedWith (.stackOverflow s.cfg.stackDepth)))

/-- R213: SWAPn with its byte, result and StackUnderflow; twice restores the stack. -/
def Obligations.SwapResults : Prop :=
  ∀ p ∈ Instr.swapFamily, decode [BitVec.ofNat 8 (0x8F + p.1)] = .ok p.2 ∧
    ∀ s : State,
      (p.1 + 1 ≤ s.stack.length → ∃ S' : List Word,
        exec p.2 s = .next { s with stack := S' } ∧ S'.length = s.stack.length ∧
        S'[0]? = s.stack[p.1]? ∧ S'[p.1]? = s.stack[0]? ∧
        (∀ j, j ≠ 0 → j ≠ p.1 → S'[j]? = s.stack[j]?) ∧
        exec p.2 { s with stack := S' } = .next s) ∧
      (s.stack.length < p.1 + 1 →
        exec p.2 s = .next (s.failedWith (.stackUnderflow (p.1 + 1) s.stack.length)))

/-- 46_memory_ops.md R230: MSTORE8 with its byte, the byte written, growth, capacity (the spec's D10) and
StackUnderflow. -/
def Obligations.Mstore8Result : Prop :=
  decode [0x53] = .ok .mstore8 ∧
  (∀ (s : State) (o v : Word) (rest : List Word), s.stack = o :: v :: rest → s.mem.wf = true →
    32 * max s.mem.words ((o.toNat + 1 + 31) / 32) ≤ s.cfg.memLimitBytes →
    ∃ m, exec .mstore8 s = .next { s with stack := rest, mem := m } ∧
      m.words = max s.mem.words ((o.toNat + 1 + 31) / 32) ∧
      (m.byteAt o.toNat).toNat = v.toNat % 256 ∧ ∀ a, a ≠ o.toNat → m.byteAt a = s.mem.byteAt a) ∧
  (∀ (s : State) (o v : Word) (rest : List Word), s.stack = o :: v :: rest →
    32 * max s.mem.words ((o.toNat + 1 + 31) / 32) > s.cfg.memLimitBytes →
    exec .mstore8 s = .next ({ s with stack := rest }.failedWith (.invalidMemoryAccess o.toNat none))) ∧
  (∀ s : State, s.stack.length ≤ 1 →
    exec .mstore8 s = .next ({ s with stack := [] }.failedWith (.stackUnderflow 1 0)))

/-- 49_optional_extensions.md R282: CODECOPY, present only with `EXT_CODECOPY`: the bytes copied, growth, size
0, capacity and StackUnderflow. -/
def Obligations.CodecopyResult : Prop :=
  (∀ (cfg : Config) (bs : List Byte), decodeFor cfg (0x39 :: bs) =
    if cfg.extCodecopy = true then .ok .codecopy else .error (.unknownOpcode 0x39)) ∧
  (∀ (s : State) (d o n : Word) (rest : List Word), s.stack = d :: o :: n :: rest →
    (n.toNat = 0 → exec .codecopy s = .next { s with stack := rest }) ∧
    (n.toNat ≠ 0 → 32 * max s.mem.words ((d.toNat + n.toNat + 31) / 32) > s.cfg.memLimitBytes →
      exec .codecopy s = .next ({ s with stack := rest }.failedWith
        (.invalidMemoryAccess d.toNat none))) ∧
    (n.toNat ≠ 0 → s.mem.wf = true →
      32 * max s.mem.words ((d.toNat + n.toNat + 31) / 32) ≤ s.cfg.memLimitBytes →
      ∃ m, exec .codecopy s = .next { s with stack := rest, mem := m } ∧
        m.words = max s.mem.words ((d.toNat + n.toNat + 31) / 32) ∧
        (∀ i, i < n.toNat → m.byteAt (d.toNat + i) = s.code.getD (o.toNat + i) 0) ∧
        (∀ a, (a < d.toNat ∨ d.toNat + n.toNat ≤ a) → m.byteAt a = s.mem.byteAt a))) ∧
  (∀ s : State, s.stack.length ≤ 2 →
    exec .codecopy s = .next ({ s with stack := [] }.failedWith (.stackUnderflow 1 0)))

/-- 48_return.md R270, R271: RETURN with its byte: the range captured and `halted`; the capacity check first
(the spec's D11), then the range check; StackUnderflow. -/
def Obligations.ReturnResult : Prop :=
  decode [0xF3] = .ok .ret ∧
  (∀ (s : State) (o n : Word) (rest : List Word), s.stack = o :: n :: rest →
    (n.toNat ≤ s.cfg.retLimitBytes → (n.toNat = 0 ∨ o.toNat + n.toNat ≤ 2 ^ 256) →
      exec .ret s = .next { s with
        stack := rest
        returndata := (List.range n.toNat).map fun i => s.mem.byteAt (o.toNat + i)
        halted := true }) ∧
    (n.toNat > s.cfg.retLimitBytes →
      exec .ret s = .next ({ s with stack := rest }.failedWith
        (.invalidMemoryAccess o.toNat (some n.toNat)))) ∧
    (n.toNat ≤ s.cfg.retLimitBytes → n.toNat ≠ 0 → o.toNat + n.toNat > 2 ^ 256 →
      exec .ret s = .next ({ s with stack := rest }.failedWith
        (.invalidMemoryAccess (2 ^ 256) none)))) ∧
  (∀ s : State, s.stack.length ≤ 1 →
    exec .ret s = .next ({ s with stack := [] }.failedWith (.stackUnderflow 1 0)))

/-- 41_stop.md R150, 47_control_flow.md R244: STOP sets `halted` and nothing else; JUMPDEST changes nothing. -/
def Obligations.StopAndJumpdestResults : Prop :=
  decode [0x00] = .ok .stop ∧ decode [0x5B] = .ok .jumpdest ∧
  ∀ s : State, exec .stop s = .next { s with halted := true } ∧ exec .jumpdest s = .next s

/-- 47_control_flow.md R245, R246, R247: JUMP with its byte: a target in `JD` is written to pc, any other is
rejected after the pop with pc unchanged; StackUnderflow. -/
def Obligations.JumpResult : Prop :=
  decode [0x56] = .ok .jump ∧
  (∀ (s : State) (t : Word) (rest : List Word), s.stack = t :: rest →
    (t.toNat ∈ s.jd → exec .jump s = .next { s with stack := rest, pc := t.toNat }) ∧
    (t.toNat ∉ s.jd →
      exec .jump s = .next ({ s with stack := rest }.failedWith (.invalidJumpDestination t)))) ∧
  (∀ s : State, s.stack = [] → exec .jump s = .next (s.failedWith (.stackUnderflow 1 0)))

/-- R248: JUMPI with its byte: any condition but 0 takes the jump, validated as for JUMP; with 0 the target is
not looked at; StackUnderflow after the target is popped. -/
def Obligations.JumpiResult : Prop :=
  decode [0x57] = .ok .jumpi ∧
  (∀ (s : State) (t c : Word) (rest : List Word), s.stack = t :: c :: rest →
    (c.toNat = 0 → exec .jumpi s = .next { s with stack := rest }) ∧
    (c.toNat ≠ 0 → t.toNat ∈ s.jd → exec .jumpi s = .next { s with stack := rest, pc := t.toNat }) ∧
    (c.toNat ≠ 0 → t.toNat ∉ s.jd →
      exec .jumpi s = .next ({ s with stack := rest }.failedWith (.invalidJumpDestination t)))) ∧
  (∀ s : State, s.stack.length ≤ 1 →
    exec .jumpi s = .next ({ s with stack := [] }.failedWith (.stackUnderflow 1 0)))

/-! ## Frames and whole-machine rules over all instructions -/

/-- 10_state.md R35, R36, R37, R40: an instruction that answers a next state leaves the code, `JD`, the
parameters, the step counter and the run's inputs as they were. -/
def Obligations.NoInstructionWritesRunInputs : Prop :=
  ∀ (i : Instr) (s t : State), exec i s = .next t →
    t.cfg = s.cfg ∧ t.code = s.code ∧ t.jd = s.jd ∧ t.steps = s.steps ∧ t.hasBudget = s.hasBudget ∧
    t.maxSteps = s.maxSteps ∧ t.extStop = s.extStop ∧ t.requests = s.requests

/-- 20_memory.md R60, R62, R66: an instruction other than MSTORE8 and CODECOPY leaves memory as it was; those
two change no byte outside the one at the offset popped first, or the `n` from the destination popped first;
memory never shrinks. -/
def Obligations.MemoryFrame : Prop :=
  ∀ (i : Instr) (s t : State), exec i s = .next t →
    (i ≠ .mstore8 → i ≠ .codecopy → t.mem = s.mem) ∧
    (s.mem.wf = true → i = .mstore8 → ∀ o v rest, s.stack = o :: v :: rest →
      ∀ a, a ≠ o.toNat → t.mem.byteAt a = s.mem.byteAt a) ∧
    (s.mem.wf = true → i = .codecopy → ∀ d o n rest, s.stack = d :: o :: n :: rest →
      ∀ a, (a < d.toNat ∨ d.toNat + n.toNat ≤ a) → t.mem.byteAt a = s.mem.byteAt a) ∧
    s.mem.words ≤ t.mem.words

/-- R33, R34: `halted` is set by STOP and RETURN alone and cleared by no instruction; only RETURN writes the
return data, and it then halts. -/
def Obligations.OnlyStopAndReturnHalt : Prop :=
  ∀ (i : Instr) (s t : State), exec i s = .next t →
    (t.halted ≠ s.halted → (i = .stop ∨ i = .ret) ∧ t.halted = true) ∧
    (t.returndata ≠ s.returndata → i = .ret ∧ t.halted = true)

/-- R30: after decode, pc is written by PUSHn (`n` further) and by a taken JUMP or JUMPI (a member of `JD`)
alone. -/
def Obligations.OnlyPushAndJumpsWritePc : Prop :=
  ∀ (i : Instr) (s t : State), exec i s = .next t →
    (∀ n imm, i.pushForm = some (n, imm) → t.pc = s.pc + n) ∧
    (i.pushForm = none → t.pc ≠ s.pc → (i = .jump ∨ i = .jumpi) ∧ t.pc ∈ s.jd)

/-- 60_exceptions.md R310, R311: an instruction either completes with `fault` and `run_state` untouched, or
takes one error: kind and payload are recorded, the run ends in halted-failure, and memory, return data and
`halted` are as before (the spec's D15). -/
def Obligations.InstructionErrorsArePrecise : Prop :=
  ∀ (i : Instr) (s : State), ∃ t, exec i s = .next t ∧
    ((t.fault = s.fault ∧ t.runState = s.runState) ∨
     (∃ e, t.fault = some e ∧ e.code.toNat ≤ 8 ∧ t.runState = .haltedFailure ∧ t.mem = s.mem ∧
       t.returndata = s.returndata ∧ t.halted = s.halted))

/-- R302: no step of a run raises InvalidStackItem, InvalidMemoryValue or InvalidCodeOffset (the spec's
inference); their codes stay. -/
def Obligations.UnitOnlyErrorsAreUnreachable : Prop :=
  (∀ (s t : State), s.runState = .running → s.fault = none → step s = .next t →
    (∀ v, t.fault ≠ some (.invalidStackItem v)) ∧ (∀ v, t.fault ≠ some (.invalidMemoryValue v)) ∧
    (∀ p, t.fault ≠ some (.invalidCodeOffset p))) ∧
  (∀ v, (ErrorInfo.invalidStackItem v).code = 1 ∧ (ErrorInfo.invalidMemoryValue v).code = 5 ∧
    (ErrorInfo.invalidCodeOffset v).code = 6)

/-! ## The Runner -/

/-- 40_dispatch_and_runner.md R122, R124, R130: a step in which the Runner decodes instruction `i` is `exec` of
`i` with pc past the opcode byte, one more step counted, and one sample of `ext_stop` taken (log 5). -/
def Obligations.StepRunsDecodedInstruction : Prop :=
  ∀ (s : State) (i : Instr), s.Ready → decodeFor s.cfg (s.code.drop s.pc) = .ok i →
    step s = exec i { s with pc := s.pc + 1, steps := s.steps + 1, extStop := s.extStop.tail }

/-- R123: at or past the end of code the built-in STOP runs without moving pc, and the run then ends in
halted-success with that pc (the sample of `ext_stop` taken is log 5). -/
def Obligations.ImplicitStop : Prop :=
  ∀ s : State, s.Ready → s.code.length ≤ s.pc →
    fetchDecode s = .ok .stop s ∧
    step s = .next { s with halted := true, steps := s.steps + 1, extStop := s.extStop.tail } ∧
    step { s with halted := true, steps := s.steps + 1, extStop := s.extStop.tail } =
      .next { s with halted := true, steps := s.steps + 1, extStop := s.extStop.tail,
                     runState := .haltedSuccess }

/-- R130, 60_exceptions.md R313, R320: `halted` is tested first, whatever the budget and `ext_stop`; then the
poll (the spec's D6, D13), which ends the run with nothing executed or counted; one sample of `ext_stop` is
taken (log 5). -/
def Obligations.HaltedThenPoll : Prop :=
  ∀ s : State, s.runState = .running →
    (s.halted = true → step s = .next { s with runState := .haltedSuccess }) ∧
    (s.halted = false →
      ((s.hasBudget = true ∧ s.maxSteps ≤ s.steps) ∨ s.extStop.head? = some true) →
      step s = .next { s with
        extStop := s.extStop.tail
        fault := some (.executionLimitReached (if s.hasBudget then some s.maxSteps else none) s.steps)
        runState := .stepLimitExceeded })

/-- R122, R130, R310: a step whose decode raises UnknownOpcode ends the run with the byte's offset in the
payload and pc one past it; the step counts (the sample of `ext_stop` taken is log 5). -/
def Obligations.UnknownOpcodeEndsRun : Prop :=
  ∀ (s : State) (op : Byte), s.Ready → s.code[s.pc]? = some op → Unassigned s.cfg op →
    step s = .next { s with
      pc := s.pc + 1
      steps := s.steps + 1
      extStop := s.extStop.tail
      fault := some (.unknownOpcode op s.pc)
      runState := .haltedFailure }

/-- R135: a step of a running state answers a next state: a running one, halted-success, or one that records an
error of the taxonomy and is terminal. -/
def Obligations.RunningStepOutcomes : Prop :=
  ∀ s : State, s.runState = .running → ∃ t, step s = .next t ∧
    ((t.runState = .running ∧ t.fault = s.fault) ∨
     (t.runState = .haltedSuccess ∧ s.halted = true ∧ t.fault = s.fault) ∨
     (t.runState = .haltedFailure ∧ ∃ e, t.fault = some e ∧ e.code.toNat ≤ 8) ∨
     (t.runState = .stepLimitExceeded ∧ ∃ limit n, t.fault = some (.executionLimitReached limit n)))

/-- R134, 10_state.md R38: a step has no next state exactly in a terminal state with no request presented (log
6, log 7) or with a request whose code is too long (log 8). -/
def Obligations.OnlyTerminalStatesStop : Prop :=
  ∀ s : State,
    (step s = .fault .runEnded ↔ s.runState ≠ .running ∧ s.requests = []) ∧
    (∀ r, step s = .refused r ↔ s.runState ≠ .running ∧ ∃ q later, s.requests = q :: later ∧
      s.cfg.codeMaxLen < q.code.length ∧ r = .codeTooLong q.code.length)

/-- 70_reset_and_hazards.md R340: the state that `start` creates has the reset values of the table (pc 0 is the
spec's D4) and the run's inputs. -/
def Obligations.StartGivesResetValues : Prop :=
  ∀ (cfg : Config) (r : RunRequest) (later : List RunRequest),
    let s := State.start cfg r later
    s.code = r.code ∧ s.pc = 0 ∧ s.stack = [] ∧ s.mem.len = 0 ∧ s.mem.activeWords = 0 ∧
    (∀ a, s.mem.byteAt a = 0) ∧ s.halted = false ∧ s.returndata = [] ∧ s.jd = jumpdests r.code ∧
    s.steps = 0 ∧ s.runState = .running ∧ s.fault = none ∧ s.reason = 0 ∧
    s.hasBudget = r.hasBudget ∧ s.maxSteps = r.maxSteps ∧ s.extStop = r.extStop

/-- State.reset is what `start` creates for the empty code buffer, no budget and `ext_stop` tied to 0, on the
default build: the model's choices of log 2 and log 3. -/
def Obligations.ResetIsStartOfEmptyCode : Prop :=
  State.reset = State.start Config.default
    { code := [], hasBudget := false, maxSteps := 0, extStop := [] } []

/-- R340, R341, 60_exceptions.md R312: a terminal state is left by a `start` and only so, and the new run sees
the parameters and its own inputs alone (the list of requests is log 6): two terminal states that agree on these
step alike. -/
def Obligations.StartDiscardsOldContext : Prop :=
  (∀ (s : State) (r : RunRequest) (later : List RunRequest), s.runState ≠ .running →
    s.requests = r :: later → r.code.length ≤ s.cfg.codeMaxLen →
    step s = .next (State.start s.cfg r later)) ∧
  (∀ s t : State, s.runState ≠ .running → step s = .next t → ∃ r later, s.requests = r :: later ∧
    r.code.length ≤ s.cfg.codeMaxLen ∧ t = State.start s.cfg r later) ∧
  (∀ s₁ s₂ : State, s₁.runState ≠ .running → s₂.runState ≠ .running → s₁.cfg = s₂.cfg →
    s₁.requests = s₂.requests → step s₁ = step s₂)

/-- R346 (the spec's inference): with a budget, a run has ended after at most `max_steps + 1` iterations from
its start, that is the steps still allowed and one more from any of its states. -/
def Obligations.BudgetBoundsRun : Prop :=
  ∀ s : State, s.runState = .running → s.hasBudget = true →
    ∃ k, k ≤ s.maxSteps - s.steps + 1 ∧ ∃ t : State,
      Sys2Proof.core.run k s = .next t ∧ t.runState ≠ .running

/-- 10_state.md R35, R36, R37, R40, 70_reset_and_hazards.md R340: a running step keeps the code, `JD`, the
parameters and the run's inputs, of whose `ext_stop` samples a poll takes one (log 5), and counts at most one
step. -/
def Obligations.RunKeepsItsInputs : Prop :=
  ∀ s t : State, s.runState = .running → step s = .next t →
    t.code = s.code ∧ t.jd = s.jd ∧ t.cfg = s.cfg ∧ t.hasBudget = s.hasBudget ∧
    t.maxSteps = s.maxSteps ∧ t.requests = s.requests ∧
    t.extStop = (if s.halted = true then s.extStop else s.extStop.tail) ∧
    (t.steps = s.steps + 1 ∨ (t.steps = s.steps ∧ t.runState ≠ .running))

/-- log 4: the host's load of a word that decodes makes the very next step run that instruction. -/
def Obligations.FetchWordRunsNext : Prop :=
  ∀ (s : State) (nbits w : Nat) (i : Instr), decodeTableWord nbits w = some i →
    step (s.withFetchWord nbits w) = exec i { s.withFetchWord nbits w with
      pc := s.pc + 1
      steps := s.steps + 1
      extStop := (s.withFetchWord nbits w).extStop.tail }

/-! ## Invariants -/

/-- 10_state.md R20, R21, R31, R33, R34, R36, R38, R39, R51, 20_memory.md R60: every step keeps State.Inv, a
`start` too. -/
def Obligations.StepKeepsInv : Prop :=
  ∀ s t : State, s.Inv → step s = .next t → t.Inv

/-- The state after reset satisfies State.Inv. -/
def Obligations.ResetHasInv : Prop :=
  State.reset.Inv

/-- 30_encoding.md R99 (the spec's inference): pc stays at an instruction start, so the bytes inside a PUSH
immediate are never decoded. -/
def Obligations.PcStaysAtInstructionStart : Prop :=
  (∀ s t : State, s.PcAtStart → step s = .next t → t.PcAtStart) ∧
  (∀ (cfg : Config) (r : RunRequest) (later : List RunRequest), (State.start cfg r later).PcAtStart)

/-- 10_state.md R31, 00_scope.md R8: the pc of a good state fits `PC_BITS` bits (the spec's D12). -/
def Obligations.PcFitsPcBits : Prop :=
  ∀ s : State, s.Inv → s.pc < 2 ^ s.cfg.pcBits

/-! ## Outputs -/

/-- 10_state.md R51, R38: the 2-bit codes of the Runner's states (the spec's D25), and the result of a terminal
state, whose reason is the code of `fault`, 0 when there is none; no result while running (log 20). -/
def Obligations.ResultRecord : Prop :=
  (RunState.running.code = 0 ∧ RunState.haltedSuccess.code = 1 ∧ RunState.haltedFailure.code = 2 ∧
    RunState.stepLimitExceeded.code = 3) ∧
  ∀ s : State,
    (s.runState = .running → s.result = none) ∧
    (s.runState ≠ .running → ∃ r, s.result = some r ∧
      (r.success = true ↔ s.runState = .haltedSuccess) ∧ r.runState = s.runState.code ∧
      r.returndata = s.returndata ∧ r.reason = s.reason ∧
      (s.fault = none → r.reason = 0) ∧ (∀ e, s.fault = some e → r.reason = e.code) ∧
      r.faultInfo = s.fault ∧ r.finalPc = s.pc ∧
      r.activeWords = s.mem.words ∧ r.steps = s.steps)

/-- R51: a run succeeds exactly when its reason code is 0, and one that did not returns no data (the spec's
inference). -/
def Obligations.FailedRunReturnsNoData : Prop :=
  ∀ (s : State) (r : RunResult), s.Inv → s.result = some r →
    (r.success = true ↔ r.reason = 0) ∧ (r.success = false → r.returndata = [])

/-- 60_exceptions.md R300, R310: the reason codes 1 to 9 in the order of the table (the spec's D7), and the
state each kind ends the run in; taking an error changes nothing else. -/
def Obligations.ErrorCodesAndEntry : Prop :=
  (∀ (v p : Int) (d n : Nat) (len lim : Option Nat) (op : Byte) (t : Word),
    (ErrorInfo.invalidStackItem v).code = 1 ∧ (ErrorInfo.stackOverflow d).code = 2 ∧
    (ErrorInfo.stackUnderflow n d).code = 3 ∧ (ErrorInfo.invalidMemoryAccess p len).code = 4 ∧
    (ErrorInfo.invalidMemoryValue v).code = 5 ∧ (ErrorInfo.invalidCodeOffset p).code = 6 ∧
    (ErrorInfo.unknownOpcode op d).code = 7 ∧ (ErrorInfo.invalidJumpDestination t).code = 8 ∧
    (ErrorInfo.executionLimitReached lim n).code = 9) ∧
  (∀ (s : State) (e : ErrorInfo), s.takeError e = { s with
    fault := some e
    runState := if e.code.toNat ≤ 8 then .haltedFailure else .stepLimitExceeded })
end

