-- ==== Sys2Proof/Laws/Decode.lean ====
section
/-! SUPPORT. The decoder inverted, once for all opcode bytes, so that no later proof splits its table. -/

namespace Sys2Proof

/-- A byte is known from its number. -/
theorem eq_ofNat_of_toNat {op : Byte} {n : Nat} (h : op.toNat = n) : op = BitVec.ofNat 8 n := by
  subst h; simp

/-- An instruction that decodes is well-formed, and its encoding is the opcode byte and, for PUSHn, the
bytes that were there. -/
theorem decode_ok_cases {op : Byte} {rest : List Byte} {i : Instr} (h : decode (op :: rest) = .ok i) :
    encode i = op :: (match i.pushForm with | some (n, _) => rest.take n | none => []) ∧
      i.wellFormed = true := by
  unfold decode at h
  simp only [] at h
  split at h
  all_goals rename_i hop
  all_goals cases h
  all_goals cases eq_ofNat_of_toNat hop
  all_goals clear hop
  all_goals refine ⟨rfl, ?_⟩
  all_goals first
    | rfl
    | (simp only [Instr.wellFormed, Instr.pushForm, List.length_take, decide_eq_true_eq]
       exact Nat.min_le_left _ _)

/-- The immediate of a decoded PUSHn is the bytes that were there. -/
theorem decode_ok_push {op : Byte} {rest imm : List Byte} {i : Instr} {n : Nat}
    (h : decode (op :: rest) = .ok i) (hf : i.pushForm = some (n, imm)) : imm = rest.take n := by
  have he := (decode_ok_cases h).1
  rw [hf] at he
  cases i <;> simp only [Instr.pushForm] at hf <;> cases hf <;> exact (List.cons.inj he).2

/-- With an opcode byte there, the one way to fail is that byte. -/
theorem decode_error_cases {op : Byte} {rest : List Byte} {e : DecodeError}
    (h : decode (op :: rest) = .error e) : e = .unknownOpcode op := by
  unfold decode at h
  simp only [] at h
  split at h
  all_goals cases h
  rfl

/-- What a build decodes, `decode` decodes. -/
theorem decode_of_decodeFor {cfg : Config} {bytes : List Byte} {i : Instr}
    (h : decodeFor cfg bytes = .ok i) : decode bytes = .ok i := by
  unfold decodeFor at h
  split at h
  · cases h
  · next hj => split at h <;> cases h; exact hj

/-- A build fails to decode for want of a byte exactly when there is none. -/
theorem decodeFor_noByte {cfg : Config} {bytes : List Byte} (h : decodeFor cfg bytes = .error .noByte) :
    bytes = [] := by
  cases bytes with
  | nil => rfl
  | cons op rest =>
    unfold decodeFor at h
    split at h
    · next hj => rw [decode_error_cases hj] at h; cases h
    · split at h <;> cases h

end Sys2Proof
end

