-- ==== Sys2Proof/Laws/Families.lean ====
section
/-! SUPPORT. The instruction families: every instruction is one of seventeen named ones or in a family,
and `exec` on a family is its shared operation. -/

namespace Sys2Proof.Machine

/-- Case analysis over the instructions, with the three families taken together. -/
theorem Instr_families (i : Instr) :
    i ∈ [Instr.stop, .add, .mul, .sub, .div, .lt, .gt, .slt, .sgt, .eq, .iszero, .codecopy, .mstore8,
      .jump, .jumpi, .jumpdest, .ret] ∨
    (∃ p ∈ Instr.pushFamily, ∃ imm, i = p.2 imm) ∨
    (∃ p ∈ Instr.dupFamily, i = p.2) ∨
    (∃ p ∈ Instr.swapFamily, i = p.2) := by
  cases i
  case stop => exact .inl (by decide)
  case add => exact .inl (by decide)
  case mul => exact .inl (by decide)
  case sub => exact .inl (by decide)
  case div => exact .inl (by decide)
  case lt => exact .inl (by decide)
  case gt => exact .inl (by decide)
  case slt => exact .inl (by decide)
  case sgt => exact .inl (by decide)
  case eq => exact .inl (by decide)
  case iszero => exact .inl (by decide)
  case codecopy => exact .inl (by decide)
  case mstore8 => exact .inl (by decide)
  case jump => exact .inl (by decide)
  case jumpi => exact .inl (by decide)
  case jumpdest => exact .inl (by decide)
  case push1 imm => exact .inr (.inl ⟨(1, .push1), by simp [Instr.pushFamily], imm, rfl⟩)
  case push2 imm => exact .inr (.inl ⟨(2, .push2), by simp [Instr.pushFamily], imm, rfl⟩)
  case push3 imm => exact .inr (.inl ⟨(3, .push3), by simp [Instr.pushFamily], imm, rfl⟩)
  case push4 imm => exact .inr (.inl ⟨(4, .push4), by simp [Instr.pushFamily], imm, rfl⟩)
  case push5 imm => exact .inr (.inl ⟨(5, .push5), by simp [Instr.pushFamily], imm, rfl⟩)
  case push6 imm => exact .inr (.inl ⟨(6, .push6), by simp [Instr.pushFamily], imm, rfl⟩)
  case push7 imm => exact .inr (.inl ⟨(7, .push7), by simp [Instr.pushFamily], imm, rfl⟩)
  case push8 imm => exact .inr (.inl ⟨(8, .push8), by simp [Instr.pushFamily], imm, rfl⟩)
  case push9 imm => exact .inr (.inl ⟨(9, .push9), by simp [Instr.pushFamily], imm, rfl⟩)
  case push10 imm => exact .inr (.inl ⟨(10, .push10), by simp [Instr.pushFamily], imm, rfl⟩)
  case push11 imm => exact .inr (.inl ⟨(11, .push11), by simp [Instr.pushFamily], imm, rfl⟩)
  case push12 imm => exact .inr (.inl ⟨(12, .push12), by simp [Instr.pushFamily], imm, rfl⟩)
  case push13 imm => exact .inr (.inl ⟨(13, .push13), by simp [Instr.pushFamily], imm, rfl⟩)
  case push14 imm => exact .inr (.inl ⟨(14, .push14), by simp [Instr.pushFamily], imm, rfl⟩)
  case push15 imm => exact .inr (.inl ⟨(15, .push15), by simp [Instr.pushFamily], imm, rfl⟩)
  case push16 imm => exact .inr (.inl ⟨(16, .push16), by simp [Instr.pushFamily], imm, rfl⟩)
  case push17 imm => exact .inr (.inl ⟨(17, .push17), by simp [Instr.pushFamily], imm, rfl⟩)
  case push18 imm => exact .inr (.inl ⟨(18, .push18), by simp [Instr.pushFamily], imm, rfl⟩)
  case push19 imm => exact .inr (.inl ⟨(19, .push19), by simp [Instr.pushFamily], imm, rfl⟩)
  case push20 imm => exact .inr (.inl ⟨(20, .push20), by simp [Instr.pushFamily], imm, rfl⟩)
  case push21 imm => exact .inr (.inl ⟨(21, .push21), by simp [Instr.pushFamily], imm, rfl⟩)
  case push22 imm => exact .inr (.inl ⟨(22, .push22), by simp [Instr.pushFamily], imm, rfl⟩)
  case push23 imm => exact .inr (.inl ⟨(23, .push23), by simp [Instr.pushFamily], imm, rfl⟩)
  case push24 imm => exact .inr (.inl ⟨(24, .push24), by simp [Instr.pushFamily], imm, rfl⟩)
  case push25 imm => exact .inr (.inl ⟨(25, .push25), by simp [Instr.pushFamily], imm, rfl⟩)
  case push26 imm => exact .inr (.inl ⟨(26, .push26), by simp [Instr.pushFamily], imm, rfl⟩)
  case push27 imm => exact .inr (.inl ⟨(27, .push27), by simp [Instr.pushFamily], imm, rfl⟩)
  case push28 imm => exact .inr (.inl ⟨(28, .push28), by simp [Instr.pushFamily], imm, rfl⟩)
  case push29 imm => exact .inr (.inl ⟨(29, .push29), by simp [Instr.pushFamily], imm, rfl⟩)
  case push30 imm => exact .inr (.inl ⟨(30, .push30), by simp [Instr.pushFamily], imm, rfl⟩)
  case push31 imm => exact .inr (.inl ⟨(31, .push31), by simp [Instr.pushFamily], imm, rfl⟩)
  case push32 imm => exact .inr (.inl ⟨(32, .push32), by simp [Instr.pushFamily], imm, rfl⟩)
  case dup1 => exact .inr (.inr (.inl ⟨(1, .dup1), by decide, rfl⟩))
  case dup2 => exact .inr (.inr (.inl ⟨(2, .dup2), by decide, rfl⟩))
  case dup3 => exact .inr (.inr (.inl ⟨(3, .dup3), by decide, rfl⟩))
  case dup4 => exact .inr (.inr (.inl ⟨(4, .dup4), by decide, rfl⟩))
  case dup5 => exact .inr (.inr (.inl ⟨(5, .dup5), by decide, rfl⟩))
  case dup6 => exact .inr (.inr (.inl ⟨(6, .dup6), by decide, rfl⟩))
  case dup7 => exact .inr (.inr (.inl ⟨(7, .dup7), by decide, rfl⟩))
  case dup8 => exact .inr (.inr (.inl ⟨(8, .dup8), by decide, rfl⟩))
  case dup9 => exact .inr (.inr (.inl ⟨(9, .dup9), by decide, rfl⟩))
  case dup10 => exact .inr (.inr (.inl ⟨(10, .dup10), by decide, rfl⟩))
  case dup11 => exact .inr (.inr (.inl ⟨(11, .dup11), by decide, rfl⟩))
  case dup12 => exact .inr (.inr (.inl ⟨(12, .dup12), by decide, rfl⟩))
  case dup13 => exact .inr (.inr (.inl ⟨(13, .dup13), by decide, rfl⟩))
  case dup14 => exact .inr (.inr (.inl ⟨(14, .dup14), by decide, rfl⟩))
  case dup15 => exact .inr (.inr (.inl ⟨(15, .dup15), by decide, rfl⟩))
  case dup16 => exact .inr (.inr (.inl ⟨(16, .dup16), by decide, rfl⟩))
  case swap1 => exact .inr (.inr (.inr ⟨(1, .swap1), by decide, rfl⟩))
  case swap2 => exact .inr (.inr (.inr ⟨(2, .swap2), by decide, rfl⟩))
  case swap3 => exact .inr (.inr (.inr ⟨(3, .swap3), by decide, rfl⟩))
  case swap4 => exact .inr (.inr (.inr ⟨(4, .swap4), by decide, rfl⟩))
  case swap5 => exact .inr (.inr (.inr ⟨(5, .swap5), by decide, rfl⟩))
  case swap6 => exact .inr (.inr (.inr ⟨(6, .swap6), by decide, rfl⟩))
  case swap7 => exact .inr (.inr (.inr ⟨(7, .swap7), by decide, rfl⟩))
  case swap8 => exact .inr (.inr (.inr ⟨(8, .swap8), by decide, rfl⟩))
  case swap9 => exact .inr (.inr (.inr ⟨(9, .swap9), by decide, rfl⟩))
  case swap10 => exact .inr (.inr (.inr ⟨(10, .swap10), by decide, rfl⟩))
  case swap11 => exact .inr (.inr (.inr ⟨(11, .swap11), by decide, rfl⟩))
  case swap12 => exact .inr (.inr (.inr ⟨(12, .swap12), by decide, rfl⟩))
  case swap13 => exact .inr (.inr (.inr ⟨(13, .swap13), by decide, rfl⟩))
  case swap14 => exact .inr (.inr (.inr ⟨(14, .swap14), by decide, rfl⟩))
  case swap15 => exact .inr (.inr (.inr ⟨(15, .swap15), by decide, rfl⟩))
  case swap16 => exact .inr (.inr (.inr ⟨(16, .swap16), by decide, rfl⟩))
  case ret => exact .inl (by decide)

/-- A property of every PUSHn, from the same property of each member of the family. -/
theorem pushFamily_forall {P : Nat × (List Byte → Instr) → Prop}
    (h : P (1, .push1) ∧ P (2, .push2) ∧ P (3, .push3) ∧ P (4, .push4) ∧ P (5, .push5) ∧ P (6, .push6) ∧ P (7, .push7) ∧ P (8, .push8) ∧ P (9, .push9) ∧ P (10, .push10) ∧ P (11, .push11) ∧ P (12, .push12) ∧ P (13, .push13) ∧ P (14, .push14) ∧ P (15, .push15) ∧ P (16, .push16) ∧ P (17, .push17) ∧ P (18, .push18) ∧ P (19, .push19) ∧ P (20, .push20) ∧ P (21, .push21) ∧ P (22, .push22) ∧ P (23, .push23) ∧ P (24, .push24) ∧ P (25, .push25) ∧ P (26, .push26) ∧ P (27, .push27) ∧ P (28, .push28) ∧ P (29, .push29) ∧ P (30, .push30) ∧ P (31, .push31) ∧ P (32, .push32)) :
    ∀ p ∈ Instr.pushFamily, P p := by
  simpa [Instr.pushFamily] using h

/-- 42_push.md R160: `exec` on the PUSH family. -/
theorem exec_pushFamily : ∀ p ∈ Instr.pushFamily, ∀ (imm : List Byte) (s : State),
    exec (p.2 imm) s = (pushImmediate p.1 imm s).outcome :=
  pushFamily_forall ⟨fun _ _ => rfl, fun _ _ => rfl, fun _ _ => rfl, fun _ _ => rfl, fun _ _ => rfl, fun _ _ => rfl, fun _ _ => rfl, fun _ _ => rfl, fun _ _ => rfl, fun _ _ => rfl, fun _ _ => rfl, fun _ _ => rfl, fun _ _ => rfl, fun _ _ => rfl, fun _ _ => rfl, fun _ _ => rfl, fun _ _ => rfl, fun _ _ => rfl, fun _ _ => rfl, fun _ _ => rfl, fun _ _ => rfl, fun _ _ => rfl, fun _ _ => rfl, fun _ _ => rfl, fun _ _ => rfl, fun _ _ => rfl, fun _ _ => rfl, fun _ _ => rfl, fun _ _ => rfl, fun _ _ => rfl, fun _ _ => rfl, fun _ _ => rfl⟩

/-- R160: `n` is 1 to 32, and the form of PUSHn is `n` with its immediate. -/
theorem pushFamily_form : ∀ p ∈ Instr.pushFamily,
    1 ≤ p.1 ∧ p.1 ≤ 32 ∧ ∀ imm : List Byte, (p.2 imm).pushForm = some (p.1, imm) :=
  pushFamily_forall ⟨⟨by decide, by decide, fun _ => rfl⟩, ⟨by decide, by decide, fun _ => rfl⟩, ⟨by decide, by decide, fun _ => rfl⟩, ⟨by decide, by decide, fun _ => rfl⟩, ⟨by decide, by decide, fun _ => rfl⟩, ⟨by decide, by decide, fun _ => rfl⟩, ⟨by decide, by decide, fun _ => rfl⟩, ⟨by decide, by decide, fun _ => rfl⟩, ⟨by decide, by decide, fun _ => rfl⟩, ⟨by decide, by decide, fun _ => rfl⟩, ⟨by decide, by decide, fun _ => rfl⟩, ⟨by decide, by decide, fun _ => rfl⟩, ⟨by decide, by decide, fun _ => rfl⟩, ⟨by decide, by decide, fun _ => rfl⟩, ⟨by decide, by decide, fun _ => rfl⟩, ⟨by decide, by decide, fun _ => rfl⟩, ⟨by decide, by decide, fun _ => rfl⟩, ⟨by decide, by decide, fun _ => rfl⟩, ⟨by decide, by decide, fun _ => rfl⟩, ⟨by decide, by decide, fun _ => rfl⟩, ⟨by decide, by decide, fun _ => rfl⟩, ⟨by decide, by decide, fun _ => rfl⟩, ⟨by decide, by decide, fun _ => rfl⟩, ⟨by decide, by decide, fun _ => rfl⟩, ⟨by decide, by decide, fun _ => rfl⟩, ⟨by decide, by decide, fun _ => rfl⟩, ⟨by decide, by decide, fun _ => rfl⟩, ⟨by decide, by decide, fun _ => rfl⟩, ⟨by decide, by decide, fun _ => rfl⟩, ⟨by decide, by decide, fun _ => rfl⟩, ⟨by decide, by decide, fun _ => rfl⟩, ⟨by decide, by decide, fun _ => rfl⟩⟩

/-- 45_stack_ops.md R210: `exec` on the DUP family, `n` in 1 to 16. -/
theorem exec_dupFamily : ∀ p ∈ Instr.dupFamily, 1 ≤ p.1 ∧ p.1 ≤ 16 ∧
    ∀ s : State, exec p.2 s = (dup p.1 s).outcome := by
  intro p hp
  simp only [Instr.dupFamily, List.cons_append, List.nil_append, List.mem_cons, List.not_mem_nil, or_false] at hp
  rcases hp with rfl | rfl | rfl | rfl | rfl | rfl | rfl | rfl | rfl | rfl | rfl | rfl | rfl | rfl | rfl | rfl <;> exact ⟨by decide, by decide, fun _ => rfl⟩

/-- 45_stack_ops.md R213: `exec` on the SWAP family, `n` in 1 to 16. -/
theorem exec_swapFamily : ∀ p ∈ Instr.swapFamily, 1 ≤ p.1 ∧ p.1 ≤ 16 ∧
    ∀ s : State, exec p.2 s = (swap p.1 s).outcome := by
  intro p hp
  simp only [Instr.swapFamily, List.cons_append, List.nil_append, List.mem_cons, List.not_mem_nil, or_false] at hp
  rcases hp with rfl | rfl | rfl | rfl | rfl | rfl | rfl | rfl | rfl | rfl | rfl | rfl | rfl | rfl | rfl | rfl <;> exact ⟨by decide, by decide, fun _ => rfl⟩

end Sys2Proof.Machine
end

