-- ==== Sys2Proof/Laws/Memory.lean ====
section
/-! SUPPORT. The Byte Memory: the canonical form is kept by every operation, and a byte is read back. -/

namespace Sys2Proof.Machine

theorem unlistedByte_eq : unlistedByte = 0 := rfl

/-! ## Cell lists -/

/-- Nothing is listed below the bound a cell list rises from. -/
theorem lookupCell_below (cells : List Host.Cell) :
    ∀ lo a, cellsOk lo cells = true → a < lo → lookupCell cells a = unlistedByte := by
  induction cells with
  | nil => intros; rfl
  | cons c rest ih =>
    obtain ⟨x, b⟩ := c
    intro lo a h ha
    simp only [cellsOk, Bool.and_eq_true, decide_eq_true_eq] at h
    have hx : x ≠ a := by omega
    simpa [lookupCell, hx] using ih (x + 1) a h.2 (by omega)

/-- The bound of a cell list may be lowered. -/
theorem cellsOk_mono (cells : List Host.Cell) {lo lo' : Nat} (h : cellsOk lo cells = true) (hl : lo' ≤ lo) :
    cellsOk lo' cells = true := by
  cases cells with
  | nil => rfl
  | cons c rest =>
    obtain ⟨x, b⟩ := c
    simp only [cellsOk, Bool.and_eq_true, decide_eq_true_eq] at h ⊢
    exact ⟨⟨by omega, h.1.2⟩, h.2⟩

/-- A write is read back, and every other address reads as before. -/
theorem lookupCell_setCell (cells : List Host.Cell) (b : Byte) :
    ∀ lo a x, cellsOk lo cells = true →
      lookupCell (setCell cells a b) x = if x = a then b else lookupCell cells x := by
  induction cells with
  | nil =>
    intro lo a x _
    by_cases hx : x = a
    · by_cases hb : b = unlistedByte <;> simp [setCell, lookupCell, hb, hx]
    · have hx' : a ≠ x := fun e => hx e.symm
      by_cases hb : b = unlistedByte <;> simp [setCell, lookupCell, hb, hx, hx']
  | cons c rest ih =>
    obtain ⟨y, c⟩ := c
    intro lo a x h
    simp only [cellsOk, Bool.and_eq_true, decide_eq_true_eq] at h
    unfold setCell
    split
    · next hay =>
      have hz : lookupCell rest a = unlistedByte := lookupCell_below rest (y + 1) a h.2 (by omega)
      split
      · next hb =>
        by_cases hx : x = a
        · subst hx
          have : y ≠ x := by omega
          simp [lookupCell, this, hz, hb]
        · simp [hx]
      · by_cases hx : x = a
        · simp [lookupCell, hx]
        · have : a ≠ x := fun e => hx e.symm
          simp [lookupCell, hx, this]
    · split
      · next hay =>
        subst hay
        have hz : lookupCell rest a = unlistedByte := lookupCell_below rest (a + 1) a h.2 (by omega)
        split
        · next hb =>
          by_cases hx : x = a
          · simp [hx, hz, hb]
          · have : a ≠ x := fun e => hx e.symm
            simp [lookupCell, hx, this]
        · by_cases hx : x = a
          · simp [lookupCell, hx]
          · have : a ≠ x := fun e => hx e.symm
            simp [lookupCell, hx, this]
      · next hne hay =>
        by_cases hy : y = x
        · have : x ≠ a := by omega
          simp [lookupCell, hy, this]
        · simp [lookupCell, hy, ih (y + 1) a x h.2]

/-- `setCell` keeps the order and lists no unlisted byte. -/
theorem cellsOk_setCell (cells : List Host.Cell) (b : Byte) :
    ∀ lo a, cellsOk lo cells = true → lo ≤ a → cellsOk lo (setCell cells a b) = true := by
  induction cells with
  | nil =>
    intro lo a _ ha
    by_cases hb : b = unlistedByte <;> simp [setCell, cellsOk, hb, ha]
  | cons c rest ih =>
    obtain ⟨y, c⟩ := c
    intro lo a h ha
    have h0 := h
    simp only [cellsOk, Bool.and_eq_true, decide_eq_true_eq] at h
    obtain ⟨⟨hlo, hc⟩, hrest⟩ := h
    unfold setCell
    split
    · next hay =>
      split
      · exact h0
      · next hb =>
        have hya : a + 1 ≤ y := hay
        simpa [cellsOk, ha, hb, hya, hrest] using hc
    · split
      · next hay =>
        subst hay
        split
        · exact cellsOk_mono rest hrest (by omega)
        · next hb => simp [cellsOk, hlo, hb, hrest]
      · simp only [cellsOk, Bool.and_eq_true, decide_eq_true_eq]
        exact ⟨⟨hlo, hc⟩, ih (y + 1) a hrest (by omega)⟩

/-- `setCell` lists no address but the old ones and the one written. -/
theorem setCell_addresses (cells : List Host.Cell) (a : Nat) (b : Byte) :
    ∀ c ∈ setCell cells a b, c.1 = a ∨ c ∈ cells := by
  induction cells with
  | nil =>
    intro c hc
    by_cases hb : b = unlistedByte <;> simp [setCell, hb] at hc
    simp [hc]
  | cons d rest ih =>
    obtain ⟨y, e⟩ := d
    intro c hc
    unfold setCell at hc
    split at hc
    · split at hc
      · exact .inr hc
      · rcases List.mem_cons.1 hc with h | h
        · exact .inl (by rw [h])
        · exact .inr h
    · split at hc
      · split at hc
        · exact .inr (List.mem_cons_of_mem _ hc)
        · rcases List.mem_cons.1 hc with h | h
          · exact .inl (by rw [h])
          · exact .inr (List.mem_cons_of_mem _ h)
      · rcases List.mem_cons.1 hc with h | h
        · exact .inr (by rw [h]; exact List.mem_cons_self)
        · rcases ih c h with h' | h'
          · exact .inl h'
          · exact .inr (List.mem_cons_of_mem _ h')

/-! ## Lengths and growth -/

@[simp] theorem Memory.setByte_words (m : Memory) (a : Nat) (b : Byte) : (m.setByte a b).words = m.words := rfl

@[simp] theorem Memory.setByte_len (m : Memory) (a : Nat) (b : Byte) : (m.setByte a b).len = m.len := rfl

@[simp] theorem Memory.writeBytes_words (bs : List Byte) :
    ∀ (m : Memory) (a : Nat), (m.writeBytes a bs).words = m.words := by
  induction bs with
  | nil => intros; rfl
  | cons b bs ih => intro m a; rw [Memory.writeBytes, ih]; rfl

@[simp] theorem Memory.writeBytes_len (bs : List Byte) (m : Memory) (a : Nat) :
    (m.writeBytes a bs).len = m.len := by
  simp [Memory.len]

/-- The words after growth cover the old memory and the bytes to be written. -/
theorem Memory.grownWords_covers (m : Memory) (o w : Nat) :
    m.words ≤ m.grownWords o w ∧ o + w ≤ wordBytes * m.grownWords o w := by
  simp only [Memory.grownWords, wordBytes]
  omega

/-- Inversion of `grow`: it raises beyond the capacity, else only the word count changes. -/
theorem Memory.grow_cases (m : Memory) (limit o w : Nat) :
    (m.grownWords o w * wordBytes > limit ∧
      m.grow limit o w = .error (.invalidMemoryAccess o none)) ∨
    (m.grownWords o w * wordBytes ≤ limit ∧
      m.grow limit o w = .ok { m with words := m.grownWords o w }) := by
  unfold Memory.grow
  split
  · next h => exact .inl ⟨h, rfl⟩
  · next h => exact .inr ⟨by omega, rfl⟩

/-! ## The canonical form -/

theorem Memory.wf_iff (m : Memory) :
    m.wf = true ↔ cellsOk 0 m.cells = true ∧ ∀ c ∈ m.cells, c.1 < m.len := by
  simp [Memory.wf]

theorem Memory.empty_wf : Memory.empty.wf = true := rfl

theorem Memory.setByte_wf (m : Memory) (a : Nat) (b : Byte) (h : m.wf = true) (ha : a < m.len) :
    (m.setByte a b).wf = true := by
  rw [Memory.wf_iff] at h ⊢
  refine ⟨cellsOk_setCell _ _ 0 a h.1 (by omega), fun c hc => ?_⟩
  rcases setCell_addresses _ _ _ c hc with h' | h'
  · rw [h']; exact ha
  · exact h.2 c h'

theorem Memory.withWords_wf (m : Memory) (n : Nat) (h : m.wf = true) (hn : m.words ≤ n) :
    ({ m with words := n } : Memory).wf = true := by
  rw [Memory.wf_iff] at h ⊢
  refine ⟨h.1, fun c hc => ?_⟩
  have := h.2 c hc
  simp only [Memory.len, wordBytes] at this ⊢
  omega

theorem Memory.writeBytes_wf (bs : List Byte) :
    ∀ (m : Memory) (a : Nat), m.wf = true → a + bs.length ≤ m.len → (m.writeBytes a bs).wf = true := by
  induction bs with
  | nil => intro m a h _; exact h
  | cons b bs ih =>
    intro m a h hl
    simp only [List.length_cons] at hl
    exact ih _ _ (m.setByte_wf a b h (by omega)) (by simp only [Memory.setByte_len]; omega)

theorem Memory.grow_wf {m g : Memory} {limit o w : Nat} (h : m.wf = true) (hg : m.grow limit o w = .ok g) :
    g.wf = true ∧ m.words ≤ g.words ∧ o + w ≤ g.len ∧ g.len ≤ limit ∧ g.cells = m.cells := by
  rcases m.grow_cases limit o w with ⟨_, h'⟩ | ⟨hl, h'⟩
  · rw [h'] at hg; cases hg
  · rw [h'] at hg
    cases hg
    have hc := m.grownWords_covers o w
    exact ⟨m.withWords_wf _ h hc.1, hc.1, hc.2, by rw [Memory.len, Nat.mul_comm]; exact hl, rfl⟩

/-! ## Reading back -/

theorem Memory.byteAt_setByte (m : Memory) (a x : Nat) (b : Byte) (h : m.wf = true) (ha : a < m.len) :
    (m.setByte a b).byteAt x = if x = a then b else m.byteAt x := by
  rw [Memory.wf_iff] at h
  simp only [Memory.byteAt, Memory.setByte_len]
  by_cases hx : x = a
  · subst hx
    simp [ha, Memory.setByte, lookupCell_setCell _ _ 0 x x h.1]
  · simp [hx, Memory.setByte, lookupCell_setCell _ _ 0 a x h.1]

/-- In a memory of canonical form, the cell list alone decides what an address reads as. -/
theorem Memory.byteAt_eq_lookup (m : Memory) (x : Nat) (h : m.wf = true) : m.byteAt x = lookupCell m.cells x := by
  rw [Memory.wf_iff] at h
  unfold Memory.byteAt
  split
  · rfl
  · next hx =>
    have : ∀ cells : List Host.Cell, (∀ c ∈ cells, c.1 < m.len) → lookupCell cells x = unlistedByte := by
      intro cells
      induction cells with
      | nil => intro _; rfl
      | cons c rest ih =>
        obtain ⟨y, b⟩ := c
        intro hb
        have hy : y ≠ x := by
          have := hb (y, b) List.mem_cons_self
          simp only at this
          omega
        simp [lookupCell, hy, ih fun c hc => hb c (List.mem_cons_of_mem _ hc)]
    exact (this m.cells h.2).symm

/-- Growth adds zero bytes only: every address reads as before (20_memory.md R66, "new bytes are zero"). -/
theorem Memory.byteAt_withWords (m : Memory) (n x : Nat) (h : m.wf = true) (hn : m.words ≤ n) :
    ({ m with words := n } : Memory).byteAt x = m.byteAt x := by
  rw [Memory.byteAt_eq_lookup _ _ (m.withWords_wf n h hn), m.byteAt_eq_lookup x h]

theorem Memory.byteAt_writeBytes (bs : List Byte) :
    ∀ (m : Memory) (a x : Nat), m.wf = true → a + bs.length ≤ m.len →
      (m.writeBytes a bs).byteAt x =
        if a ≤ x ∧ x < a + bs.length then bs.getD (x - a) unlistedByte else m.byteAt x := by
  induction bs with
  | nil =>
    intro m a x _ _
    have : ¬ (a ≤ x ∧ x < a + ([] : List Byte).length) := by simp
    rw [if_neg this]; rfl
  | cons b bs ih =>
    intro m a x h hl
    simp only [List.length_cons] at hl ⊢
    have hset := m.setByte_wf a b h (by omega)
    rw [Memory.writeBytes, ih _ _ _ hset (by simp only [Memory.setByte_len]; omega),
      m.byteAt_setByte a x b h (by omega)]
    by_cases h1 : x = a
    · subst h1
      simp
    · by_cases h2 : a + 1 ≤ x ∧ x < a + 1 + bs.length
      · have h3 : a ≤ x ∧ x < a + (bs.length + 1) := by omega
        obtain ⟨k, hk⟩ : ∃ k, x - a = k + 1 := ⟨x - a - 1, by omega⟩
        have hk' : x - (a + 1) = k := by omega
        simp [h2, h3, hk, hk']
      · have h3 : ¬ (a ≤ x ∧ x < a + (bs.length + 1)) := by omega
        rw [if_neg h2, if_neg h1, if_neg h3]

end Sys2Proof.Machine
end

