-- ==== Sys2Proof/Laws/State.lean ====
section
/-! SUPPORT. The small lemmas of the state updates, one per field and update, and of `Res`. -/

namespace Sys2Proof.Machine

@[simp] theorem State.withStack_cfg (s : State) (v : List Word) : (s.withStack v).cfg = s.cfg := rfl
@[simp] theorem State.withStack_code (s : State) (v : List Word) : (s.withStack v).code = s.code := rfl
@[simp] theorem State.withStack_pc (s : State) (v : List Word) : (s.withStack v).pc = s.pc := rfl
@[simp] theorem State.withStack_stack (s : State) (v : List Word) : (s.withStack v).stack = v := rfl
@[simp] theorem State.withStack_mem (s : State) (v : List Word) : (s.withStack v).mem = s.mem := rfl
@[simp] theorem State.withStack_halted (s : State) (v : List Word) : (s.withStack v).halted = s.halted := rfl
@[simp] theorem State.withStack_returndata (s : State) (v : List Word) : (s.withStack v).returndata = s.returndata := rfl
@[simp] theorem State.withStack_jd (s : State) (v : List Word) : (s.withStack v).jd = s.jd := rfl
@[simp] theorem State.withStack_steps (s : State) (v : List Word) : (s.withStack v).steps = s.steps := rfl
@[simp] theorem State.withStack_runState (s : State) (v : List Word) : (s.withStack v).runState = s.runState := rfl
@[simp] theorem State.withStack_fault (s : State) (v : List Word) : (s.withStack v).fault = s.fault := rfl
@[simp] theorem State.withStack_hasBudget (s : State) (v : List Word) : (s.withStack v).hasBudget = s.hasBudget := rfl
@[simp] theorem State.withStack_maxSteps (s : State) (v : List Word) : (s.withStack v).maxSteps = s.maxSteps := rfl
@[simp] theorem State.withStack_extStop (s : State) (v : List Word) : (s.withStack v).extStop = s.extStop := rfl
@[simp] theorem State.withStack_requests (s : State) (v : List Word) : (s.withStack v).requests = s.requests := rfl

@[simp] theorem State.withPc_cfg (s : State) (v : Nat) : (s.withPc v).cfg = s.cfg := rfl
@[simp] theorem State.withPc_code (s : State) (v : Nat) : (s.withPc v).code = s.code := rfl
@[simp] theorem State.withPc_pc (s : State) (v : Nat) : (s.withPc v).pc = v := rfl
@[simp] theorem State.withPc_stack (s : State) (v : Nat) : (s.withPc v).stack = s.stack := rfl
@[simp] theorem State.withPc_mem (s : State) (v : Nat) : (s.withPc v).mem = s.mem := rfl
@[simp] theorem State.withPc_halted (s : State) (v : Nat) : (s.withPc v).halted = s.halted := rfl
@[simp] theorem State.withPc_returndata (s : State) (v : Nat) : (s.withPc v).returndata = s.returndata := rfl
@[simp] theorem State.withPc_jd (s : State) (v : Nat) : (s.withPc v).jd = s.jd := rfl
@[simp] theorem State.withPc_steps (s : State) (v : Nat) : (s.withPc v).steps = s.steps := rfl
@[simp] theorem State.withPc_runState (s : State) (v : Nat) : (s.withPc v).runState = s.runState := rfl
@[simp] theorem State.withPc_fault (s : State) (v : Nat) : (s.withPc v).fault = s.fault := rfl
@[simp] theorem State.withPc_hasBudget (s : State) (v : Nat) : (s.withPc v).hasBudget = s.hasBudget := rfl
@[simp] theorem State.withPc_maxSteps (s : State) (v : Nat) : (s.withPc v).maxSteps = s.maxSteps := rfl
@[simp] theorem State.withPc_extStop (s : State) (v : Nat) : (s.withPc v).extStop = s.extStop := rfl
@[simp] theorem State.withPc_requests (s : State) (v : Nat) : (s.withPc v).requests = s.requests := rfl

@[simp] theorem State.withMem_cfg (s : State) (v : Memory) : (s.withMem v).cfg = s.cfg := rfl
@[simp] theorem State.withMem_code (s : State) (v : Memory) : (s.withMem v).code = s.code := rfl
@[simp] theorem State.withMem_pc (s : State) (v : Memory) : (s.withMem v).pc = s.pc := rfl
@[simp] theorem State.withMem_stack (s : State) (v : Memory) : (s.withMem v).stack = s.stack := rfl
@[simp] theorem State.withMem_mem (s : State) (v : Memory) : (s.withMem v).mem = v := rfl
@[simp] theorem State.withMem_halted (s : State) (v : Memory) : (s.withMem v).halted = s.halted := rfl
@[simp] theorem State.withMem_returndata (s : State) (v : Memory) : (s.withMem v).returndata = s.returndata := rfl
@[simp] theorem State.withMem_jd (s : State) (v : Memory) : (s.withMem v).jd = s.jd := rfl
@[simp] theorem State.withMem_steps (s : State) (v : Memory) : (s.withMem v).steps = s.steps := rfl
@[simp] theorem State.withMem_runState (s : State) (v : Memory) : (s.withMem v).runState = s.runState := rfl
@[simp] theorem State.withMem_fault (s : State) (v : Memory) : (s.withMem v).fault = s.fault := rfl
@[simp] theorem State.withMem_hasBudget (s : State) (v : Memory) : (s.withMem v).hasBudget = s.hasBudget := rfl
@[simp] theorem State.withMem_maxSteps (s : State) (v : Memory) : (s.withMem v).maxSteps = s.maxSteps := rfl
@[simp] theorem State.withMem_extStop (s : State) (v : Memory) : (s.withMem v).extStop = s.extStop := rfl
@[simp] theorem State.withMem_requests (s : State) (v : Memory) : (s.withMem v).requests = s.requests := rfl

@[simp] theorem State.withReturndata_cfg (s : State) (v : List Byte) : (s.withReturndata v).cfg = s.cfg := rfl
@[simp] theorem State.withReturndata_code (s : State) (v : List Byte) : (s.withReturndata v).code = s.code := rfl
@[simp] theorem State.withReturndata_pc (s : State) (v : List Byte) : (s.withReturndata v).pc = s.pc := rfl
@[simp] theorem State.withReturndata_stack (s : State) (v : List Byte) : (s.withReturndata v).stack = s.stack := rfl
@[simp] theorem State.withReturndata_mem (s : State) (v : List Byte) : (s.withReturndata v).mem = s.mem := rfl
@[simp] theorem State.withReturndata_halted (s : State) (v : List Byte) : (s.withReturndata v).halted = s.halted := rfl
@[simp] theorem State.withReturndata_returndata (s : State) (v : List Byte) : (s.withReturndata v).returndata = v := rfl
@[simp] theorem State.withReturndata_jd (s : State) (v : List Byte) : (s.withReturndata v).jd = s.jd := rfl
@[simp] theorem State.withReturndata_steps (s : State) (v : List Byte) : (s.withReturndata v).steps = s.steps := rfl
@[simp] theorem State.withReturndata_runState (s : State) (v : List Byte) : (s.withReturndata v).runState = s.runState := rfl
@[simp] theorem State.withReturndata_fault (s : State) (v : List Byte) : (s.withReturndata v).fault = s.fault := rfl
@[simp] theorem State.withReturndata_hasBudget (s : State) (v : List Byte) : (s.withReturndata v).hasBudget = s.hasBudget := rfl
@[simp] theorem State.withReturndata_maxSteps (s : State) (v : List Byte) : (s.withReturndata v).maxSteps = s.maxSteps := rfl
@[simp] theorem State.withReturndata_extStop (s : State) (v : List Byte) : (s.withReturndata v).extStop = s.extStop := rfl
@[simp] theorem State.withReturndata_requests (s : State) (v : List Byte) : (s.withReturndata v).requests = s.requests := rfl

@[simp] theorem State.halt_cfg (s : State) : (s.halt).cfg = s.cfg := rfl
@[simp] theorem State.halt_code (s : State) : (s.halt).code = s.code := rfl
@[simp] theorem State.halt_pc (s : State) : (s.halt).pc = s.pc := rfl
@[simp] theorem State.halt_stack (s : State) : (s.halt).stack = s.stack := rfl
@[simp] theorem State.halt_mem (s : State) : (s.halt).mem = s.mem := rfl
@[simp] theorem State.halt_halted (s : State) : (s.halt).halted = true := rfl
@[simp] theorem State.halt_returndata (s : State) : (s.halt).returndata = s.returndata := rfl
@[simp] theorem State.halt_jd (s : State) : (s.halt).jd = s.jd := rfl
@[simp] theorem State.halt_steps (s : State) : (s.halt).steps = s.steps := rfl
@[simp] theorem State.halt_runState (s : State) : (s.halt).runState = s.runState := rfl
@[simp] theorem State.halt_fault (s : State) : (s.halt).fault = s.fault := rfl
@[simp] theorem State.halt_hasBudget (s : State) : (s.halt).hasBudget = s.hasBudget := rfl
@[simp] theorem State.halt_maxSteps (s : State) : (s.halt).maxSteps = s.maxSteps := rfl
@[simp] theorem State.halt_extStop (s : State) : (s.halt).extStop = s.extStop := rfl
@[simp] theorem State.halt_requests (s : State) : (s.halt).requests = s.requests := rfl

@[simp] theorem State.takeError_cfg (s : State) (e : ErrorInfo) : (s.takeError e).cfg = s.cfg := rfl
@[simp] theorem State.takeError_code (s : State) (e : ErrorInfo) : (s.takeError e).code = s.code := rfl
@[simp] theorem State.takeError_pc (s : State) (e : ErrorInfo) : (s.takeError e).pc = s.pc := rfl
@[simp] theorem State.takeError_stack (s : State) (e : ErrorInfo) : (s.takeError e).stack = s.stack := rfl
@[simp] theorem State.takeError_mem (s : State) (e : ErrorInfo) : (s.takeError e).mem = s.mem := rfl
@[simp] theorem State.takeError_halted (s : State) (e : ErrorInfo) : (s.takeError e).halted = s.halted := rfl
@[simp] theorem State.takeError_returndata (s : State) (e : ErrorInfo) : (s.takeError e).returndata = s.returndata := rfl
@[simp] theorem State.takeError_jd (s : State) (e : ErrorInfo) : (s.takeError e).jd = s.jd := rfl
@[simp] theorem State.takeError_steps (s : State) (e : ErrorInfo) : (s.takeError e).steps = s.steps := rfl
@[simp] theorem State.takeError_runState (s : State) (e : ErrorInfo) : (s.takeError e).runState = e.endState := rfl
@[simp] theorem State.takeError_fault (s : State) (e : ErrorInfo) : (s.takeError e).fault = some e := rfl
@[simp] theorem State.takeError_hasBudget (s : State) (e : ErrorInfo) : (s.takeError e).hasBudget = s.hasBudget := rfl
@[simp] theorem State.takeError_maxSteps (s : State) (e : ErrorInfo) : (s.takeError e).maxSteps = s.maxSteps := rfl
@[simp] theorem State.takeError_extStop (s : State) (e : ErrorInfo) : (s.takeError e).extStop = s.extStop := rfl
@[simp] theorem State.takeError_requests (s : State) (e : ErrorInfo) : (s.takeError e).requests = s.requests := rfl

@[simp] theorem State.afterPoll_cfg (s : State) : (s.afterPoll).cfg = s.cfg := rfl
@[simp] theorem State.afterPoll_code (s : State) : (s.afterPoll).code = s.code := rfl
@[simp] theorem State.afterPoll_pc (s : State) : (s.afterPoll).pc = s.pc := rfl
@[simp] theorem State.afterPoll_stack (s : State) : (s.afterPoll).stack = s.stack := rfl
@[simp] theorem State.afterPoll_mem (s : State) : (s.afterPoll).mem = s.mem := rfl
@[simp] theorem State.afterPoll_halted (s : State) : (s.afterPoll).halted = s.halted := rfl
@[simp] theorem State.afterPoll_returndata (s : State) : (s.afterPoll).returndata = s.returndata := rfl
@[simp] theorem State.afterPoll_jd (s : State) : (s.afterPoll).jd = s.jd := rfl
@[simp] theorem State.afterPoll_steps (s : State) : (s.afterPoll).steps = s.steps := rfl
@[simp] theorem State.afterPoll_runState (s : State) : (s.afterPoll).runState = s.runState := rfl
@[simp] theorem State.afterPoll_fault (s : State) : (s.afterPoll).fault = s.fault := rfl
@[simp] theorem State.afterPoll_hasBudget (s : State) : (s.afterPoll).hasBudget = s.hasBudget := rfl
@[simp] theorem State.afterPoll_maxSteps (s : State) : (s.afterPoll).maxSteps = s.maxSteps := rfl
@[simp] theorem State.afterPoll_extStop (s : State) : (s.afterPoll).extStop = s.extStop.tail := rfl
@[simp] theorem State.afterPoll_requests (s : State) : (s.afterPoll).requests = s.requests := rfl

@[simp] theorem State.counted_cfg (s : State) : (s.counted).cfg = s.cfg := rfl
@[simp] theorem State.counted_code (s : State) : (s.counted).code = s.code := rfl
@[simp] theorem State.counted_pc (s : State) : (s.counted).pc = s.pc := rfl
@[simp] theorem State.counted_stack (s : State) : (s.counted).stack = s.stack := rfl
@[simp] theorem State.counted_mem (s : State) : (s.counted).mem = s.mem := rfl
@[simp] theorem State.counted_halted (s : State) : (s.counted).halted = s.halted := rfl
@[simp] theorem State.counted_returndata (s : State) : (s.counted).returndata = s.returndata := rfl
@[simp] theorem State.counted_jd (s : State) : (s.counted).jd = s.jd := rfl
@[simp] theorem State.counted_steps (s : State) : (s.counted).steps = s.steps + 1 := rfl
@[simp] theorem State.counted_runState (s : State) : (s.counted).runState = s.runState := rfl
@[simp] theorem State.counted_fault (s : State) : (s.counted).fault = s.fault := rfl
@[simp] theorem State.counted_hasBudget (s : State) : (s.counted).hasBudget = s.hasBudget := rfl
@[simp] theorem State.counted_maxSteps (s : State) : (s.counted).maxSteps = s.maxSteps := rfl
@[simp] theorem State.counted_extStop (s : State) : (s.counted).extStop = s.extStop.tail := rfl
@[simp] theorem State.counted_requests (s : State) : (s.counted).requests = s.requests := rfl

@[simp] theorem Res.andThen_ok {α β : Type} (v : α) (s : State) (f : α → State → Res β) :
    (Res.ok v s).andThen f = f v s := rfl

@[simp] theorem Res.andThen_raised {α β : Type} (e : ErrorInfo) (s : State) (f : α → State → Res β) :
    (Res.raised e s).andThen f = .raised e s := rfl

@[simp] theorem Res.outcome_ok (v : Unit) (s : State) : (Res.ok v s).outcome = .next s := rfl

@[simp] theorem Res.outcome_raised (e : ErrorInfo) (s : State) :
    (Res.raised e s).outcome = .next (s.takeError e) := rfl

@[simp] theorem Res.ofExcept_ok {α : Type} (s : State) (v : α) : Res.ofExcept s (.ok v) = .ok v s := rfl

@[simp] theorem Res.ofExcept_error {α : Type} (s : State) (e : ErrorInfo) :
    Res.ofExcept (α := α) s (.error e) = .raised e s := rfl

/-- Inversion of sequencing: the answer of `r.andThen f` is `f`'s, or `r`'s raise. -/
theorem Res.andThen_cases {α β : Type} (r : Res α) (f : α → State → Res β) :
    (∃ v t, r = .ok v t ∧ r.andThen f = f v t) ∨
    (∃ e t, r = .raised e t ∧ r.andThen f = .raised e t) := by
  cases r with
  | ok v t => exact .inl ⟨v, t, rfl, rfl⟩
  | raised e t => exact .inr ⟨e, t, rfl, rfl⟩

/-- An instruction's outcome is always a next state: its statements' state, or that state with the
error taken. -/
theorem Res.outcome_cases (r : Res Unit) :
    (∃ t, r = .ok () t ∧ r.outcome = .next t) ∨
    (∃ e t, r = .raised e t ∧ r.outcome = .next (t.takeError e)) := by
  cases r with
  | ok v t => exact .inl ⟨t, rfl, rfl⟩
  | raised e t => exact .inr ⟨e, t, rfl, rfl⟩

end Sys2Proof.Machine
end

