-- ==== Sys2Proof/Laws/Ops.lean ====
section
/-! SUPPORT. One lemma per shared operation: everything it can answer. Proofs cite these and do not
unfold the operations. -/

namespace Sys2Proof.Machine

/-! ## The Word Stack -/

/-- A Word offered as an integer is pushed as itself. -/
theorem ofInt_toNat_word (v : Word) : BitVec.ofInt 256 (v.toNat : Int) = v := by
  apply BitVec.eq_of_toNat_eq
  simp

theorem push_cases (v : Int) (s : State) :
    ((v < 0 ∨ v > 2 ^ 256 - 1) ∧ push v s = .raised (.invalidStackItem v) s) ∨
    (¬ (v < 0 ∨ v > 2 ^ 256 - 1) ∧ s.stack.length = s.cfg.stackDepth ∧
      push v s = .raised (.stackOverflow s.stack.length) s) ∨
    (¬ (v < 0 ∨ v > 2 ^ 256 - 1) ∧ s.stack.length ≠ s.cfg.stackDepth ∧
      push v s = .ok () (s.withStack (BitVec.ofInt 256 v :: s.stack))) := by
  unfold push
  split
  · next h => exact .inl ⟨h, rfl⟩
  · next h =>
    split
    · next h' => exact .inr (.inl ⟨h, h', rfl⟩)
    · next h' => exact .inr (.inr ⟨h, h', rfl⟩)

/-- A Word is never refused as a stack item: it overflows a full stack, or is pushed. -/
theorem pushWord_cases (v : Word) (s : State) :
    (s.stack.length = s.cfg.stackDepth ∧ pushWord v s = .raised (.stackOverflow s.stack.length) s) ∨
    (s.stack.length ≠ s.cfg.stackDepth ∧ pushWord v s = .ok () (s.withStack (v :: s.stack))) := by
  have hv : ¬ ((v.toNat : Int) < 0 ∨ (v.toNat : Int) > 2 ^ 256 - 1) := by
    have := v.isLt
    omega
  rcases push_cases v.toNat s with ⟨h, _⟩ | ⟨_, h, e⟩ | ⟨_, h, e⟩
  · exact absurd h hv
  · exact .inl ⟨h, e⟩
  · exact .inr ⟨h, by rw [ofInt_toNat_word] at e; exact e⟩

theorem pop_cases (s : State) :
    (s.stack = [] ∧ pop s = .raised (.stackUnderflow 1 0) s) ∨
    (∃ v rest, s.stack = v :: rest ∧ pop s = .ok v (s.withStack rest)) := by
  unfold pop
  split
  · next h => exact .inl ⟨h, rfl⟩
  · next v rest h => exact .inr ⟨v, rest, h, rfl⟩

theorem pop_cons {s : State} {v : Word} {rest : List Word} (h : s.stack = v :: rest) :
    pop s = .ok v (s.withStack rest) := by
  simp [pop, h]

theorem pop_nil {s : State} (h : s.stack = []) : pop s = .raised (.stackUnderflow 1 0) s := by
  simp [pop, h]

theorem peek_cases (i : Nat) (s : State) :
    (s.stack.length ≤ i ∧ peek i s = .raised (.stackUnderflow (i + 1) s.stack.length) s) ∨
    (∃ v, s.stack[i]? = some v ∧ peek i s = .ok v s) := by
  unfold peek
  split
  · next h => exact .inl ⟨List.getElem?_eq_none_iff.1 h, rfl⟩
  · next v h => exact .inr ⟨v, h, rfl⟩

theorem swap_cases (i : Nat) (s : State) :
    (s.stack.length ≤ i ∧ swap i s = .raised (.stackUnderflow (i + 1) s.stack.length) s) ∨
    (∃ top v, s.stack[0]? = some top ∧ s.stack[i]? = some v ∧
      swap i s = .ok () (s.withStack ((s.stack.set 0 v).set i top))) := by
  unfold swap
  split
  · next top v h0 hi => exact .inr ⟨top, v, h0, hi, rfl⟩
  · next hno =>
    refine .inl ⟨Nat.le_of_not_lt fun hlt => ?_, rfl⟩
    exact hno _ _ (List.getElem?_eq_getElem (Nat.lt_of_le_of_lt (Nat.zero_le i) hlt))
      (List.getElem?_eq_getElem hlt)

/-! ## The Byte Memory -/

theorem checkMem_cases (o : Int) :
    ((o < 0 ∨ o > 2 ^ 256 - 1) ∧ checkMem o = .error (.invalidMemoryAccess o none)) ∨
    (¬ (o < 0 ∨ o > 2 ^ 256 - 1) ∧ checkMem o = .ok ()) := by
  unfold checkMem
  split
  · next h => exact .inl ⟨h, rfl⟩
  · next h => exact .inr ⟨h, rfl⟩

theorem codeRange_length (code : List Byte) (o n : Nat) : (codeRange code o n).length = n := by
  simp [codeRange]

theorem beBytes_length (n v : Nat) : (beBytes n v).length = n := by
  induction n with
  | zero => rfl
  | succ n ih => simp [beBytes, ih]

/-- `store` inverted: a bad offset, a bad value, no capacity, or one byte written. -/
theorem Memory.store_cases (m : Memory) (limit : Nat) (o b : Int) :
    (∃ e, m.store limit o b = .error e) ∨
    (∃ g, m.grow limit o.toNat 1 = .ok g ∧
      m.store limit o b = .ok (g.setByte o.toNat (BitVec.ofInt 8 b))) := by
  unfold Memory.store
  rcases checkMem_cases o with ⟨_, h⟩ | ⟨_, h⟩ <;> rw [h]
  · exact .inl ⟨_, rfl⟩
  · by_cases hb : b < 0 ∨ b > 255
    · simp only [if_pos hb]
      exact .inl ⟨_, rfl⟩
    · simp only [if_neg hb]
      rcases m.grow_cases limit o.toNat 1 with ⟨_, hg⟩ | ⟨_, hg⟩ <;> rw [hg]
      · exact .inl ⟨_, rfl⟩
      · exact .inr ⟨_, rfl, rfl⟩

/-- `store` keeps the canonical form and never shrinks memory. -/
theorem Memory.store_wf {m g : Memory} {limit : Nat} {o b : Int} (h : m.wf = true)
    (hs : m.store limit o b = .ok g) : g.wf = true ∧ m.words ≤ g.words ∧ g.len ≤ limit := by
  rcases m.store_cases limit o b with ⟨e, he⟩ | ⟨g', hg', hs'⟩
  · rw [he] at hs; cases hs
  · rw [hs'] at hs
    cases hs
    have hw := Memory.grow_wf h hg'
    exact ⟨g'.setByte_wf _ _ hw.1 (by omega), hw.2.1, hw.2.2.2.1⟩

/-- `storeWord` keeps the canonical form and never shrinks memory. -/
theorem Memory.storeWord_wf {m g : Memory} {limit : Nat} {o : Int} {v : Word} (h : m.wf = true)
    (hs : m.storeWord limit o v = .ok g) : g.wf = true ∧ m.words ≤ g.words ∧ g.len ≤ limit := by
  unfold Memory.storeWord at hs
  rcases checkMem_cases o with ⟨_, hc⟩ | ⟨_, hc⟩ <;> rw [hc] at hs
  · cases hs
  · rcases hg : m.grow limit o.toNat wordBytes with e | g'
    · rw [hg] at hs; cases hs
    · rw [hg] at hs
      cases hs
      have hw := Memory.grow_wf h hg
      refine ⟨g'.writeBytes_wf _ _ hw.1 ?_, ?_, ?_⟩
      · rw [beBytes_length]; exact hw.2.2.1
      · rw [Memory.writeBytes_words]; exact hw.2.1
      · rw [Memory.writeBytes_len]; exact hw.2.2.2.1

/-- `storeByte` inverted. -/
theorem storeByte_cases (o b : Int) (s : State) :
    (∃ e, s.mem.store s.cfg.memLimitBytes o b = .error e ∧ storeByte o b s = .raised e s) ∨
    (∃ m, s.mem.store s.cfg.memLimitBytes o b = .ok m ∧ storeByte o b s = .ok () (s.withMem m)) := by
  unfold storeByte
  rcases h : s.mem.store s.cfg.memLimitBytes o b with e | m
  · exact .inl ⟨e, rfl, rfl⟩
  · exact .inr ⟨m, rfl, rfl⟩

/-- `copyCode` inverted: nothing to copy, no capacity, or the bytes written into grown memory. -/
theorem copyCode_cases (d o n : Nat) (s : State) :
    (n = 0 ∧ copyCode d o n s = .ok () s) ∨
    (n ≠ 0 ∧ s.mem.grownWords d n * wordBytes > s.cfg.memLimitBytes ∧
      copyCode d o n s = .raised (.invalidMemoryAccess d none) s) ∨
    (n ≠ 0 ∧ ∃ g, s.mem.grow s.cfg.memLimitBytes d n = .ok g ∧
      copyCode d o n s = .ok () (s.withMem (g.writeBytes d (codeRange s.code o n)))) := by
  unfold copyCode
  split
  · next h => exact .inl ⟨h, rfl⟩
  · next h =>
    rcases s.mem.grow_cases s.cfg.memLimitBytes d n with ⟨hl, hg⟩ | ⟨_, hg⟩ <;> rw [hg]
    · exact .inr (.inl ⟨h, hl, rfl⟩)
    · exact .inr (.inr ⟨h, _, rfl, rfl⟩)

/-- `copyCode` keeps the canonical form and never shrinks memory. -/
theorem copyCode_wf {m g : Memory} {limit d n : Nat} {bs : List Byte} (h : m.wf = true)
    (hg : m.grow limit d n = .ok g) (hb : bs.length = n) :
    (g.writeBytes d bs).wf = true ∧ m.words ≤ (g.writeBytes d bs).words ∧ (g.writeBytes d bs).len ≤ limit := by
  have hw := Memory.grow_wf h hg
  refine ⟨g.writeBytes_wf _ _ hw.1 (by rw [hb]; exact hw.2.2.1), ?_, ?_⟩
  · rw [Memory.writeBytes_words]; exact hw.2.1
  · rw [Memory.writeBytes_len]; exact hw.2.2.2.1

/-- `captureRange` changes no state, whatever it answers. -/
theorem captureRange_cases (o n : Word) (s : State) :
    (n.toNat > s.cfg.retLimitBytes ∧
      captureRange o n s = .raised (.invalidMemoryAccess o.toNat (some n.toNat)) s) ∨
    (n.toNat ≤ s.cfg.retLimitBytes ∧
      captureRange o n s = Res.ofExcept s (s.mem.loadRange o.toNat n.toNat)) := by
  unfold captureRange
  split
  · next h => exact .inl ⟨h, rfl⟩
  · next h => exact .inr ⟨by omega, rfl⟩

/-! ## Control -/

theorem jumpTo_cases (t : Word) (s : State) :
    (t.toNat ∈ s.jd ∧ jumpTo t s = .ok () (s.withPc t.toNat)) ∨
    (t.toNat ∉ s.jd ∧ jumpTo t s = .raised (.invalidJumpDestination t) s) := by
  unfold jumpTo
  split
  · next h => exact .inl ⟨h, rfl⟩
  · next h => exact .inr ⟨h, rfl⟩

/-- Decode inverted (40_dispatch_and_runner.md R120): step 1 never raises for a natural pc. -/
theorem fetchDecode_cases (s : State) :
    (decodeFor s.cfg (s.code.drop s.pc) = .error .noByte ∧ fetchDecode s = .ok .stop s) ∨
    (∃ op, decodeFor s.cfg (s.code.drop s.pc) = .error (.unknownOpcode op) ∧
      fetchDecode s = .raised (.unknownOpcode op s.pc) (s.withPc (s.pc + 1))) ∨
    (∃ i, decodeFor s.cfg (s.code.drop s.pc) = .ok i ∧ fetchDecode s = .ok i (s.withPc (s.pc + 1))) := by
  have hpc : ¬ ((s.pc : Int) < 0) := by omega
  unfold fetchDecode
  rw [if_neg hpc]
  split
  · next h => exact .inl ⟨h, rfl⟩
  · next op h => exact .inr (.inl ⟨op, h, rfl⟩)
  · next i h => exact .inr (.inr ⟨i, h, rfl⟩)

/-- The poll inverted (40_dispatch_and_runner.md R130, in the order of 60_exceptions.md R313). -/
theorem poll_cases (s : State) :
    (s.halted = true ∧ s.poll = .over { s with runState := .haltedSuccess }) ∨
    (s.halted = false ∧ s.limitReached = true ∧
      s.poll = .over (s.afterPoll.takeError (.executionLimitReached s.limit s.steps))) ∨
    (s.halted = false ∧ s.limitReached = false ∧ ∃ e t, fetchDecode s.counted = .raised e t ∧
      s.poll = .over (t.takeError e)) ∨
    (s.halted = false ∧ s.limitReached = false ∧ ∃ i t, fetchDecode s.counted = .ok i t ∧
      s.poll = .dispatch i t) := by
  unfold State.poll
  cases hh : s.halted
  · cases hl : s.limitReached
    · rcases hf : fetchDecode s.counted with ⟨i, t⟩ | ⟨e, t⟩
      · exact .inr (.inr (.inr ⟨rfl, rfl, i, t, rfl, rfl⟩))
      · exact .inr (.inr (.inl ⟨rfl, rfl, e, t, rfl, rfl⟩))
    · exact .inr (.inl ⟨rfl, rfl, rfl⟩)
  · exact .inl ⟨rfl, rfl⟩

end Sys2Proof.Machine
end

