-- ==== Sys2Proof/Laws/PerInstr.lean ====
section
/-! SUPPORT. The per-instruction family "Encoding": the encoding of an instruction is its opcode byte and
its immediate, and its length is the one spec/30_encoding.md R92 tells from that byte. -/

namespace Sys2Proof.Laws.Encoding

/-- R91, R92, R95: the bytes of an instruction are one opcode byte, assigned by the decoder, followed by
its immediate field, and a complete instruction has the length of R92. -/
def Statement (i : Instr) : Prop :=
  ∃ op : Byte, encode i = op :: (match i.pushForm with | some (_, imm) => imm | none => []) ∧
    opcodeLength op = 1 + (match i.pushForm with | some (n, _) => n | none => 0) ∧
    (∃ j, decode [op] = .ok j ∧ j.mnemonic = i.mnemonic)

theorem stop : Statement .stop :=
  ⟨0x00, rfl, by decide, .stop, rfl, rfl⟩

theorem add : Statement .add :=
  ⟨0x01, rfl, by decide, .add, rfl, rfl⟩

theorem mul : Statement .mul :=
  ⟨0x02, rfl, by decide, .mul, rfl, rfl⟩

theorem sub : Statement .sub :=
  ⟨0x03, rfl, by decide, .sub, rfl, rfl⟩

theorem div : Statement .div :=
  ⟨0x04, rfl, by decide, .div, rfl, rfl⟩

theorem lt : Statement .lt :=
  ⟨0x10, rfl, by decide, .lt, rfl, rfl⟩

theorem gt : Statement .gt :=
  ⟨0x11, rfl, by decide, .gt, rfl, rfl⟩

theorem slt : Statement .slt :=
  ⟨0x12, rfl, by decide, .slt, rfl, rfl⟩

theorem sgt : Statement .sgt :=
  ⟨0x13, rfl, by decide, .sgt, rfl, rfl⟩

theorem eq : Statement .eq :=
  ⟨0x14, rfl, by decide, .eq, rfl, rfl⟩

theorem iszero : Statement .iszero :=
  ⟨0x15, rfl, by decide, .iszero, rfl, rfl⟩

theorem codecopy : Statement .codecopy :=
  ⟨0x39, rfl, by decide, .codecopy, rfl, rfl⟩

theorem mstore8 : Statement .mstore8 :=
  ⟨0x53, rfl, by decide, .mstore8, rfl, rfl⟩

theorem jump : Statement .jump :=
  ⟨0x56, rfl, by decide, .jump, rfl, rfl⟩

theorem jumpi : Statement .jumpi :=
  ⟨0x57, rfl, by decide, .jumpi, rfl, rfl⟩

theorem jumpdest : Statement .jumpdest :=
  ⟨0x5B, rfl, by decide, .jumpdest, rfl, rfl⟩

theorem push1 (imm : List Byte) : Statement (.push1 imm) :=
  ⟨0x60, rfl, (by decide : opcodeLength 0x60 = 1 + 1), .push1 [], rfl, rfl⟩

theorem push2 (imm : List Byte) : Statement (.push2 imm) :=
  ⟨0x61, rfl, (by decide : opcodeLength 0x61 = 1 + 2), .push2 [], rfl, rfl⟩

theorem push3 (imm : List Byte) : Statement (.push3 imm) :=
  ⟨0x62, rfl, (by decide : opcodeLength 0x62 = 1 + 3), .push3 [], rfl, rfl⟩

theorem push4 (imm : List Byte) : Statement (.push4 imm) :=
  ⟨0x63, rfl, (by decide : opcodeLength 0x63 = 1 + 4), .push4 [], rfl, rfl⟩

theorem push5 (imm : List Byte) : Statement (.push5 imm) :=
  ⟨0x64, rfl, (by decide : opcodeLength 0x64 = 1 + 5), .push5 [], rfl, rfl⟩

theorem push6 (imm : List Byte) : Statement (.push6 imm) :=
  ⟨0x65, rfl, (by decide : opcodeLength 0x65 = 1 + 6), .push6 [], rfl, rfl⟩

theorem push7 (imm : List Byte) : Statement (.push7 imm) :=
  ⟨0x66, rfl, (by decide : opcodeLength 0x66 = 1 + 7), .push7 [], rfl, rfl⟩

theorem push8 (imm : List Byte) : Statement (.push8 imm) :=
  ⟨0x67, rfl, (by decide : opcodeLength 0x67 = 1 + 8), .push8 [], rfl, rfl⟩

theorem push9 (imm : List Byte) : Statement (.push9 imm) :=
  ⟨0x68, rfl, (by decide : opcodeLength 0x68 = 1 + 9), .push9 [], rfl, rfl⟩

theorem push10 (imm : List Byte) : Statement (.push10 imm) :=
  ⟨0x69, rfl, (by decide : opcodeLength 0x69 = 1 + 10), .push10 [], rfl, rfl⟩

theorem push11 (imm : List Byte) : Statement (.push11 imm) :=
  ⟨0x6A, rfl, (by decide : opcodeLength 0x6A = 1 + 11), .push11 [], rfl, rfl⟩

theorem push12 (imm : List Byte) : Statement (.push12 imm) :=
  ⟨0x6B, rfl, (by decide : opcodeLength 0x6B = 1 + 12), .push12 [], rfl, rfl⟩

theorem push13 (imm : List Byte) : Statement (.push13 imm) :=
  ⟨0x6C, rfl, (by decide : opcodeLength 0x6C = 1 + 13), .push13 [], rfl, rfl⟩

theorem push14 (imm : List Byte) : Statement (.push14 imm) :=
  ⟨0x6D, rfl, (by decide : opcodeLength 0x6D = 1 + 14), .push14 [], rfl, rfl⟩

theorem push15 (imm : List Byte) : Statement (.push15 imm) :=
  ⟨0x6E, rfl, (by decide : opcodeLength 0x6E = 1 + 15), .push15 [], rfl, rfl⟩

theorem push16 (imm : List Byte) : Statement (.push16 imm) :=
  ⟨0x6F, rfl, (by decide : opcodeLength 0x6F = 1 + 16), .push16 [], rfl, rfl⟩

theorem push17 (imm : List Byte) : Statement (.push17 imm) :=
  ⟨0x70, rfl, (by decide : opcodeLength 0x70 = 1 + 17), .push17 [], rfl, rfl⟩

theorem push18 (imm : List Byte) : Statement (.push18 imm) :=
  ⟨0x71, rfl, (by decide : opcodeLength 0x71 = 1 + 18), .push18 [], rfl, rfl⟩

theorem push19 (imm : List Byte) : Statement (.push19 imm) :=
  ⟨0x72, rfl, (by decide : opcodeLength 0x72 = 1 + 19), .push19 [], rfl, rfl⟩

theorem push20 (imm : List Byte) : Statement (.push20 imm) :=
  ⟨0x73, rfl, (by decide : opcodeLength 0x73 = 1 + 20), .push20 [], rfl, rfl⟩

theorem push21 (imm : List Byte) : Statement (.push21 imm) :=
  ⟨0x74, rfl, (by decide : opcodeLength 0x74 = 1 + 21), .push21 [], rfl, rfl⟩

theorem push22 (imm : List Byte) : Statement (.push22 imm) :=
  ⟨0x75, rfl, (by decide : opcodeLength 0x75 = 1 + 22), .push22 [], rfl, rfl⟩

theorem push23 (imm : List Byte) : Statement (.push23 imm) :=
  ⟨0x76, rfl, (by decide : opcodeLength 0x76 = 1 + 23), .push23 [], rfl, rfl⟩

theorem push24 (imm : List Byte) : Statement (.push24 imm) :=
  ⟨0x77, rfl, (by decide : opcodeLength 0x77 = 1 + 24), .push24 [], rfl, rfl⟩

theorem push25 (imm : List Byte) : Statement (.push25 imm) :=
  ⟨0x78, rfl, (by decide : opcodeLength 0x78 = 1 + 25), .push25 [], rfl, rfl⟩

theorem push26 (imm : List Byte) : Statement (.push26 imm) :=
  ⟨0x79, rfl, (by decide : opcodeLength 0x79 = 1 + 26), .push26 [], rfl, rfl⟩

theorem push27 (imm : List Byte) : Statement (.push27 imm) :=
  ⟨0x7A, rfl, (by decide : opcodeLength 0x7A = 1 + 27), .push27 [], rfl, rfl⟩

theorem push28 (imm : List Byte) : Statement (.push28 imm) :=
  ⟨0x7B, rfl, (by decide : opcodeLength 0x7B = 1 + 28), .push28 [], rfl, rfl⟩

theorem push29 (imm : List Byte) : Statement (.push29 imm) :=
  ⟨0x7C, rfl, (by decide : opcodeLength 0x7C = 1 + 29), .push29 [], rfl, rfl⟩

theorem push30 (imm : List Byte) : Statement (.push30 imm) :=
  ⟨0x7D, rfl, (by decide : opcodeLength 0x7D = 1 + 30), .push30 [], rfl, rfl⟩

theorem push31 (imm : List Byte) : Statement (.push31 imm) :=
  ⟨0x7E, rfl, (by decide : opcodeLength 0x7E = 1 + 31), .push31 [], rfl, rfl⟩

theorem push32 (imm : List Byte) : Statement (.push32 imm) :=
  ⟨0x7F, rfl, (by decide : opcodeLength 0x7F = 1 + 32), .push32 [], rfl, rfl⟩

theorem dup1 : Statement .dup1 :=
  ⟨0x80, rfl, by decide, .dup1, rfl, rfl⟩

theorem dup2 : Statement .dup2 :=
  ⟨0x81, rfl, by decide, .dup2, rfl, rfl⟩

theorem dup3 : Statement .dup3 :=
  ⟨0x82, rfl, by decide, .dup3, rfl, rfl⟩

theorem dup4 : Statement .dup4 :=
  ⟨0x83, rfl, by decide, .dup4, rfl, rfl⟩

theorem dup5 : Statement .dup5 :=
  ⟨0x84, rfl, by decide, .dup5, rfl, rfl⟩

theorem dup6 : Statement .dup6 :=
  ⟨0x85, rfl, by decide, .dup6, rfl, rfl⟩

theorem dup7 : Statement .dup7 :=
  ⟨0x86, rfl, by decide, .dup7, rfl, rfl⟩

theorem dup8 : Statement .dup8 :=
  ⟨0x87, rfl, by decide, .dup8, rfl, rfl⟩

theorem dup9 : Statement .dup9 :=
  ⟨0x88, rfl, by decide, .dup9, rfl, rfl⟩

theorem dup10 : Statement .dup10 :=
  ⟨0x89, rfl, by decide, .dup10, rfl, rfl⟩

theorem dup11 : Statement .dup11 :=
  ⟨0x8A, rfl, by decide, .dup11, rfl, rfl⟩

theorem dup12 : Statement .dup12 :=
  ⟨0x8B, rfl, by decide, .dup12, rfl, rfl⟩

theorem dup13 : Statement .dup13 :=
  ⟨0x8C, rfl, by decide, .dup13, rfl, rfl⟩

theorem dup14 : Statement .dup14 :=
  ⟨0x8D, rfl, by decide, .dup14, rfl, rfl⟩

theorem dup15 : Statement .dup15 :=
  ⟨0x8E, rfl, by decide, .dup15, rfl, rfl⟩

theorem dup16 : Statement .dup16 :=
  ⟨0x8F, rfl, by decide, .dup16, rfl, rfl⟩

theorem swap1 : Statement .swap1 :=
  ⟨0x90, rfl, by decide, .swap1, rfl, rfl⟩

theorem swap2 : Statement .swap2 :=
  ⟨0x91, rfl, by decide, .swap2, rfl, rfl⟩

theorem swap3 : Statement .swap3 :=
  ⟨0x92, rfl, by decide, .swap3, rfl, rfl⟩

theorem swap4 : Statement .swap4 :=
  ⟨0x93, rfl, by decide, .swap4, rfl, rfl⟩

theorem swap5 : Statement .swap5 :=
  ⟨0x94, rfl, by decide, .swap5, rfl, rfl⟩

theorem swap6 : Statement .swap6 :=
  ⟨0x95, rfl, by decide, .swap6, rfl, rfl⟩

theorem swap7 : Statement .swap7 :=
  ⟨0x96, rfl, by decide, .swap7, rfl, rfl⟩

theorem swap8 : Statement .swap8 :=
  ⟨0x97, rfl, by decide, .swap8, rfl, rfl⟩

theorem swap9 : Statement .swap9 :=
  ⟨0x98, rfl, by decide, .swap9, rfl, rfl⟩

theorem swap10 : Statement .swap10 :=
  ⟨0x99, rfl, by decide, .swap10, rfl, rfl⟩

theorem swap11 : Statement .swap11 :=
  ⟨0x9A, rfl, by decide, .swap11, rfl, rfl⟩

theorem swap12 : Statement .swap12 :=
  ⟨0x9B, rfl, by decide, .swap12, rfl, rfl⟩

theorem swap13 : Statement .swap13 :=
  ⟨0x9C, rfl, by decide, .swap13, rfl, rfl⟩

theorem swap14 : Statement .swap14 :=
  ⟨0x9D, rfl, by decide, .swap14, rfl, rfl⟩

theorem swap15 : Statement .swap15 :=
  ⟨0x9E, rfl, by decide, .swap15, rfl, rfl⟩

theorem swap16 : Statement .swap16 :=
  ⟨0x9F, rfl, by decide, .swap16, rfl, rfl⟩

theorem ret : Statement .ret :=
  ⟨0xF3, rfl, by decide, .ret, rfl, rfl⟩

end Sys2Proof.Laws.Encoding
end

