-- ==== Sys2Proof/Laws/Step.lean ====
section
/-! SUPPORT. The step inverted, once: everything an iteration of the Runner can do. -/

namespace Sys2Proof.Machine

theorem step_running {s : State} (h : s.runState = .running) :
    step s = (match s.poll with | .over t => .next t | .dispatch i t => exec i t) := by
  cases hp : s.poll <;> simp [step, h, hp]

theorem step_terminal {s : State} (h : s.runState ≠ .running) : step s = s.idle := by
  unfold step
  cases hr : s.runState <;> simp_all

/-- A running state ends its run at the halted test, at the poll or at an unknown opcode, or executes the
built-in STOP past the end of code, or the instruction that decode found. -/
theorem step_running_cases {s : State} (hr : s.runState = .running) :
    (s.halted = true ∧ step s = .next { s with runState := .haltedSuccess }) ∨
    (s.halted = false ∧ s.limitReached = true ∧
      step s = .next (s.afterPoll.takeError (.executionLimitReached s.limit s.steps))) ∨
    (s.halted = false ∧ s.limitReached = false ∧ ∃ op,
      decodeFor s.cfg (s.code.drop s.pc) = .error (.unknownOpcode op) ∧
      step s = .next ((s.counted.withPc (s.pc + 1)).takeError (.unknownOpcode op s.pc))) ∨
    (s.halted = false ∧ s.limitReached = false ∧ s.code.length ≤ s.pc ∧ step s = exec .stop s.counted) ∨
    (s.halted = false ∧ s.limitReached = false ∧ ∃ i,
      decodeFor s.cfg (s.code.drop s.pc) = .ok i ∧ step s = exec i (s.counted.withPc (s.pc + 1))) := by
  rw [step_running hr]
  rcases poll_cases s with ⟨hh, hp⟩ | ⟨hh, hl, hp⟩ | ⟨hh, hl, e, t, hf, hp⟩ | ⟨hh, hl, i, t, hf, hp⟩ <;> rw [hp]
  · exact .inl ⟨hh, rfl⟩
  · exact .inr (.inl ⟨hh, hl, rfl⟩)
  · rcases fetchDecode_cases s.counted with ⟨_, h⟩ | ⟨op, hd, h⟩ | ⟨i, _, h⟩ <;> rw [h] at hf <;> cases hf
    exact .inr (.inr (.inl ⟨hh, hl, op, hd, rfl⟩))
  · rcases fetchDecode_cases s.counted with ⟨hd, h⟩ | ⟨op, _, h⟩ | ⟨i, hd, h⟩ <;> rw [h] at hf <;> cases hf
    · exact .inr (.inr (.inr (.inl ⟨hh, hl, List.drop_eq_nil_iff.1 (decodeFor_noByte hd), rfl⟩)))
    · exact .inr (.inr (.inr (.inr ⟨hh, hl, _, hd, rfl⟩)))

end Sys2Proof.Machine
end

