-- ==== Sys2Proof/Tests/Slice0.lean ====
section
/-! SUPPORT. The model's own tests: ill-formed terms refused, words of the opcode map decoded, single steps
with the results of spec/95_test_vectors.md, and for every statement with hypotheses a witness that meets them. -/

namespace Sys2Proof.Tests

open Sys2Proof Sys2Proof.Machine

/-! ## WellFormed -/

/-- spec/30_encoding.md R91: a PUSH1 with two immediate bytes is ill-formed. -/
theorem test_wellFormed_refuses_push1_of_two_bytes : (Instr.push1 [1, 2]).wellFormed = false := by decide

/-- R91: each PUSHn takes `n` bytes and refuses `n + 1`. -/
theorem test_wellFormed_bounds_every_push :
    Instr.pushFamily.all (fun p => (p.2 (List.replicate p.1 0xAB)).wellFormed &&
      !(p.2 (List.replicate (p.1 + 1) 0xAB)).wellFormed) = true := by decide

/-- R92, 42_push.md R161: a PUSH2 with one byte is well-formed, and truncated. -/
theorem test_complete_refuses_truncated_push :
    (Instr.push2 [1]).wellFormed = true ∧ (Instr.push2 [1]).complete = false := by decide

/-! ## Decoding: every constructor, by the bytes of 30_encoding.md R95 -/

/-- R95: arithmetic, comparison and STOP. -/
theorem test_decode_arithmetic :
    [decode [0x00], decode [0x01], decode [0x02], decode [0x03], decode [0x04], decode [0x10], decode [0x11],
     decode [0x12], decode [0x13], decode [0x14], decode [0x15]] =
    [.ok .stop, .ok .add, .ok .mul, .ok .sub, .ok .div, .ok .lt, .ok .gt, .ok .slt, .ok .sgt, .ok .eq,
     .ok .iszero] := rfl

/-- R95: memory and control. -/
theorem test_decode_control :
    [decode [0x39], decode [0x53], decode [0x56], decode [0x57], decode [0x5B], decode [0xF3]] =
    [.ok .codecopy, .ok .mstore8, .ok .jump, .ok .jumpi, .ok .jumpdest, .ok .ret] := rfl

/-- R95: DUP1 to DUP16 at 0x80 to 0x8F. -/
theorem test_decode_dup :
    [decode [0x80], decode [0x81], decode [0x82], decode [0x83], decode [0x84], decode [0x85], decode [0x86],
     decode [0x87], decode [0x88], decode [0x89], decode [0x8A], decode [0x8B], decode [0x8C],
     decode [0x8D], decode [0x8E], decode [0x8F]] =
    [.ok .dup1, .ok .dup2, .ok .dup3, .ok .dup4, .ok .dup5, .ok .dup6, .ok .dup7, .ok .dup8, .ok .dup9,
     .ok .dup10, .ok .dup11, .ok .dup12, .ok .dup13, .ok .dup14, .ok .dup15, .ok .dup16] := rfl

/-- R95: SWAP1 to SWAP16 at 0x90 to 0x9F. -/
theorem test_decode_swap :
    [decode [0x90], decode [0x91], decode [0x92], decode [0x93], decode [0x94], decode [0x95], decode [0x96],
     decode [0x97], decode [0x98], decode [0x99], decode [0x9A], decode [0x9B], decode [0x9C],
     decode [0x9D], decode [0x9E], decode [0x9F]] =
    [.ok .swap1, .ok .swap2, .ok .swap3, .ok .swap4, .ok .swap5, .ok .swap6, .ok .swap7, .ok .swap8, .ok .swap9,
     .ok .swap10, .ok .swap11, .ok .swap12, .ok .swap13, .ok .swap14, .ok .swap15, .ok .swap16] := rfl

/-- R95: PUSH1 to PUSH8 at 0x60 to 0x67; `n` bytes are taken and one more is left. -/
theorem test_decode_push_1_to_8 :
    [decode [0x60, 0x5B, 0x01], decode [0x61, 0x5B, 0x01], decode (0x62 :: List.replicate 4 0x5B),
     decode (0x63 :: List.replicate 5 0x5B), decode (0x64 :: List.replicate 6 0x5B),
     decode (0x65 :: List.replicate 7 0x5B), decode (0x66 :: List.replicate 8 0x5B),
     decode (0x67 :: List.replicate 9 0x5B)] =
    [.ok (.push1 [0x5B]), .ok (.push2 [0x5B, 0x01]), .ok (.push3 (List.replicate 3 0x5B)),
     .ok (.push4 (List.replicate 4 0x5B)), .ok (.push5 (List.replicate 5 0x5B)),
     .ok (.push6 (List.replicate 6 0x5B)), .ok (.push7 (List.replicate 7 0x5B)),
     .ok (.push8 (List.replicate 8 0x5B))] := rfl

/-- R95: PUSH9 to PUSH16 at 0x68 to 0x6F; `n` bytes are taken and one more is left. -/
theorem test_decode_push_9_to_16 :
    [decode (0x68 :: List.replicate 10 0x5B), decode (0x69 :: List.replicate 11 0x5B),
     decode (0x6A :: List.replicate 12 0x5B), decode (0x6B :: List.replicate 13 0x5B),
     decode (0x6C :: List.replicate 14 0x5B), decode (0x6D :: List.replicate 15 0x5B),
     decode (0x6E :: List.replicate 16 0x5B), decode (0x6F :: List.replicate 17 0x5B)] =
    [.ok (.push9 (List.replicate 9 0x5B)), .ok (.push10 (List.replicate 10 0x5B)),
     .ok (.push11 (List.replicate 11 0x5B)), .ok (.push12 (List.replicate 12 0x5B)),
     .ok (.push13 (List.replicate 13 0x5B)), .ok (.push14 (List.replicate 14 0x5B)),
     .ok (.push15 (List.replicate 15 0x5B)), .ok (.push16 (List.replicate 16 0x5B))] := rfl

/-- R95: PUSH17 to PUSH24 at 0x70 to 0x77; `n` bytes are taken and one more is left. -/
theorem test_decode_push_17_to_24 :
    [decode (0x70 :: List.replicate 18 0x5B), decode (0x71 :: List.replicate 19 0x5B),
     decode (0x72 :: List.replicate 20 0x5B), decode (0x73 :: List.replicate 21 0x5B),
     decode (0x74 :: List.replicate 22 0x5B), decode (0x75 :: List.replicate 23 0x5B),
     decode (0x76 :: List.replicate 24 0x5B), decode (0x77 :: List.replicate 25 0x5B)] =
    [.ok (.push17 (List.replicate 17 0x5B)), .ok (.push18 (List.replicate 18 0x5B)),
     .ok (.push19 (List.replicate 19 0x5B)), .ok (.push20 (List.replicate 20 0x5B)),
     .ok (.push21 (List.replicate 21 0x5B)), .ok (.push22 (List.replicate 22 0x5B)),
     .ok (.push23 (List.replicate 23 0x5B)), .ok (.push24 (List.replicate 24 0x5B))] := rfl

/-- R95: PUSH25 to PUSH32 at 0x78 to 0x7F; `n` bytes are taken and one more is left. -/
theorem test_decode_push_25_to_32 :
    [decode (0x78 :: List.replicate 26 0x5B), decode (0x79 :: List.replicate 27 0x5B),
     decode (0x7A :: List.replicate 28 0x5B), decode (0x7B :: List.replicate 29 0x5B),
     decode (0x7C :: List.replicate 30 0x5B), decode (0x7D :: List.replicate 31 0x5B),
     decode (0x7E :: List.replicate 32 0x5B), decode (0x7F :: List.replicate 33 0x5B)] =
    [.ok (.push25 (List.replicate 25 0x5B)), .ok (.push26 (List.replicate 26 0x5B)),
     .ok (.push27 (List.replicate 27 0x5B)), .ok (.push28 (List.replicate 28 0x5B)),
     .ok (.push29 (List.replicate 29 0x5B)), .ok (.push30 (List.replicate 30 0x5B)),
     .ok (.push31 (List.replicate 31 0x5B)), .ok (.push32 (List.replicate 32 0x5B))] := rfl

/-- R91, R96, bit by bit: PUSHn is `011` and `n - 1`, DUPn `1000` and `n - 1`, SWAPn `1001` and `n - 1`. -/
theorem test_decode_bits :
    decode [0b01100010, 0b00000001, 0b00000010, 0b10000000] = .ok (.push3 [1, 2, 128]) ∧
    decode [0b10000110] = .ok .dup7 ∧ decode [0b10011011] = .ok .swap12 := ⟨rfl, rfl, rfl⟩

/-- R97: the ends of each unassigned range; 0x04 and 0x39 without their extensions. -/
theorem test_decode_unassigned :
    ([0x04, 0x05, 0x0F, 0x16, 0x38, 0x39, 0x3A, 0x52, 0x54, 0x55, 0x58, 0x5A, 0x5C, 0x5F, 0xA0, 0xF2, 0xF4,
      0xFE, 0xFF] : List Byte).all (fun op => match decodeFor Config.default [op] with
        | .error (.unknownOpcode b) => b == op
        | _ => false) = true := by decide

/-- The host's word of PUSH2 0x1234: the second byte stands in bits 15 to 8. -/
theorem test_decodeTableWord_push2 : decodeTableWord 24 0x341261 = some (.push2 [0x12, 0x34]) := by decide

/-! ## Single steps, with the results of spec/95_test_vectors.md -/

/-- A running state over a code buffer with a stack, top first, on a build with both extensions. -/
def probe (code : List Byte) (stack : List Word) : State :=
  { State.reset with
    cfg := { Config.default with extDiv := true, extCodecopy := true }
    code := code
    jd := jumpdests code
    stack := stack }

/-- One step, looked at through `f`. -/
def after {α : Type} (f : State → α) (s : State) : Option α :=
  match step s with
  | .next t => some (f t)
  | .fault _ => none
  | .refused _ => none

/-- The Word `2^256 - 1`. -/
def maxWord : Word := BitVec.allOnes 256

/-- The Word `2^255`. -/
def signWord : Word := BitVec.ofNat 256 (2 ^ 255)

/-- ADD-1. -/
theorem test_add_wraps :
    after State.stack (probe [0x01] [1, maxWord]) = some [0] := by decide

/-- MUL-5. -/
theorem test_mul_wraps :
    after State.stack (probe [0x02] [maxWord, 7]) = some [BitVec.ofNat 256 (2 ^ 256 - 7)] := by decide

/-- SUB-2. -/
theorem test_sub_takes_top_first :
    after State.stack (probe [0x03] [1, 5]) = some [BitVec.ofNat 256 (2 ^ 256 - 4)] := by decide

/-- SUB-7. -/
theorem test_sub_underflow :
    after (fun t => (t.stack, t.fault)) (probe [0x03] [4]) = some ([], some (.stackUnderflow 1 0)) := by decide

/-- DIV-5. -/
theorem test_div_unsigned :
    after State.stack (probe [0x04] [maxWord, 2]) = some [BitVec.ofNat 256 (2 ^ 255 - 1)] := by decide

/-- DIV-3. -/
theorem test_div_by_zero :
    after State.stack (probe [0x04] [10, 0]) = some [0] := by decide

/-- RUN-7: without `EXT_DIV` nothing is divided. -/
theorem test_div_absent :
    after (fun t => (t.stack, t.fault, t.pc)) { probe [0x04] [10, 3] with cfg := Config.default } =
      some ([10, 3], some (.unknownOpcode 0x04 0), 1) := by decide

/-- LT-6. -/
theorem test_lt_unsigned :
    after State.stack (probe [0x10] [signWord, 1]) = some [0] := by decide

/-- GT-5. -/
theorem test_gt_unsigned :
    after State.stack (probe [0x11] [signWord, 1]) = some [1] := by decide

/-- SLT-5. -/
theorem test_slt_signed :
    after State.stack (probe [0x12] [signWord, 1]) = some [1] := by decide

/-- SGT-5. -/
theorem test_sgt_signed :
    after State.stack (probe [0x13] [1, maxWord]) = some [1] := by decide

/-- EQ-3. -/
theorem test_eq_high_bits :
    after State.stack (probe [0x14] [signWord, signWord - 1]) = some [0] := by decide

/-- ISZERO-4. -/
theorem test_iszero_high_bit :
    after State.stack (probe [0x15] [signWord]) = some [0] := by decide

/-- ISZERO-1. -/
theorem test_iszero_zero :
    after State.stack (probe [0x15] [0]) = some [1] := by decide

/-- DUP3-1. -/
theorem test_dup3 :
    after State.stack (probe [0x82] [7, 8, 9]) = some [9, 7, 8, 9] := by decide

/-- DUP3-2. -/
theorem test_dup3_underflow :
    after (fun t => (t.stack, t.fault)) (probe [0x82] [7, 8]) = some ([7, 8], some (.stackUnderflow 3 2)) := by decide

/-- DUP16-1. -/
theorem test_dup16 :
    after State.stack (probe [0x8F]
      [1, 2, 3, 4, 5, 6, 7, 8, 9, 10, 11, 12, 13, 14, 15, 16]) =
      some [16, 1, 2, 3, 4, 5, 6, 7, 8, 9, 10, 11, 12, 13, 14, 15, 16] := by decide

/-- DUP1d-1. -/
theorem test_dup1_overflow :
    after (fun t => (t.stack, t.fault))
      { probe [0x80] [7, 8] with cfg := { Config.default with stackDepth := 2 } } =
      some ([7, 8], some (.stackOverflow 2)) := by decide

/-- SWAP1-2. -/
theorem test_swap1 :
    after State.stack (probe [0x90] [1, 2, 3]) = some [2, 1, 3] := by decide

/-- SWAP16-1. -/
theorem test_swap16 :
    after State.stack (probe [0x9F]
      [1, 2, 3, 4, 5, 6, 7, 8, 9, 10, 11, 12, 13, 14, 15, 16, 17]) =
      some [17, 2, 3, 4, 5, 6, 7, 8, 9, 10, 11, 12, 13, 14, 15, 16, 1] := by decide

/-- PUSH-2. -/
theorem test_push2 :
    after (fun t => (t.stack, t.pc)) (probe [0x61, 0x12, 0x34] []) = some ([0x1234], 3) := by decide

/-- PUSH-4. -/
theorem test_push2_truncated :
    after (fun t => (t.stack, t.pc)) (probe [0x61, 0xAB] []) = some ([0xAB], 3) := by decide

/-- PUSH-5. -/
theorem test_push2_right_pad :
    after (fun t => (t.stack, t.pc))
      { probe [0x61, 0xAB] [] with cfg := { Config.default with truncPushMode := .rightPad } } =
      some ([0xAB00], 3) := by decide

/-- PUSH-6. -/
theorem test_push32_no_byte :
    after (fun t => (t.stack, t.pc)) (probe [0x7F] []) = some ([0], 33) := by decide

/-- PUSH-7, its third instruction. -/
theorem test_push1_overflow :
    after (fun t => (t.stack, t.fault, t.pc))
      { probe [0x60, 0x03] [2, 1] with cfg := { Config.default with stackDepth := 2 } } =
      some ([2, 1], some (.stackOverflow 2), 2) := by decide

/-- MS8-3, its store. -/
theorem test_mstore8_low_byte :
    after (fun t => (t.stack, t.mem)) (probe [0x53] [0x1F, 0x1234]) = some ([], ⟨1, [(31, 0x34)]⟩) := by decide

/-- MS8-4. -/
theorem test_mstore8_capacity :
    after (fun t => (t.fault, t.mem.words)) (probe [0x53] [0x100000, 7]) =
      some (some (.invalidMemoryAccess 1048576 none), 0) := by decide

/-- J-2. -/
theorem test_jump_taken :
    after (fun t => (t.pc, t.jd)) (probe [0x60, 0x03, 0x56, 0x5B] []) = some (2, [3]) ∧
    after State.pc { probe [0x60, 0x03, 0x56, 0x5B] [3] with pc := 2 } = some 3 := by decide

/-- E4. -/
theorem test_jump_into_immediate :
    after (fun t => (t.fault, t.pc)) { probe [0x60, 0x5B, 0x60, 0x01, 0x56] [1, 0x5B] with pc := 4 } =
      some (some (.invalidJumpDestination 1), 5) := by decide

/-- J-3. -/
theorem test_jumpi_not_taken :
    after (fun t => (t.fault, t.pc, t.stack)) (probe [0x57, 0x00] [99, 0]) = some (none, 1, []) := by decide

/-- J-4. -/
theorem test_jumpi_validates :
    after State.fault (probe [0x57, 0x00] [99, maxWord]) = some (some (.invalidJumpDestination 99)) := by decide

/-- J-1. -/
theorem test_jumpdest :
    after (fun t => (t.pc, t.steps, t.jd)) (probe [0x5B] []) = some (1, 1, [0]) := by decide

/-- J-7, J-8, J-9. -/
theorem test_analyzer :
    jumpdests [0x61, 0x5B, 0x5B, 0x5B] = [3] ∧ jumpdests [0x7F, 0x5B] = [] ∧
      jumpdests [0xFE, 0x5B] = [1] := by decide

/-- RET-2, its RETURN. -/
theorem test_return_zero_fills :
    after (fun t => (t.returndata, t.halted, t.mem.words))
      { probe [0xF3] [0x3E, 3] with mem := ⟨2, [(63, 9)]⟩ } = some ([0, 9, 0], true, 2) := by decide

/-- RET-4, its RETURN. -/
theorem test_return_past_last_offset :
    after (fun t => (t.fault, t.returndata)) (probe [0xF3] [maxWord, 2]) =
      some (some (.invalidMemoryAccess (2 ^ 256) none), []) := by decide

/-- RET-5, its RETURN. -/
theorem test_return_capacity :
    after State.fault (probe [0xF3] [0, 65537]) = some (some (.invalidMemoryAccess 0 (some 65537))) := by decide

/-- RUN-4. -/
theorem test_stop :
    after (fun t => (t.pc, t.halted, t.steps)) (probe [0x00] []) = some (1, true, 1) := by decide

/-- RUN-1. -/
theorem test_implicit_stop :
    after (fun t => (t.pc, t.halted, t.steps)) (probe [] []) = some (0, true, 1) := by decide

/-- RUN-6. -/
theorem test_unknown_opcode :
    after (fun t => (t.fault, t.pc, t.steps)) (probe [0xFE] []) = some (some (.unknownOpcode 0xFE 0), 1, 1) := by decide

/-- RUN-2. -/
theorem test_budget_zero :
    after (fun t => (t.fault, t.runState, t.pc)) { probe [] [] with hasBudget := true } =
      some (some (.executionLimitReached (some 0) 0), .stepLimitExceeded, 0) := by decide

/-- RUN-8. -/
theorem test_ext_stop :
    after (fun t => (t.fault, t.runState, t.steps)) { probe [0x5B] [] with extStop := [true] } =
      some (some (.executionLimitReached none 0), .stepLimitExceeded, 0) := by decide

/-- CC-1, its CODECOPY. -/
theorem test_codecopy :
    after (fun t => t.mem) { probe [0x60, 4, 0x60, 0, 0x60, 0, 0x39, 0] [0, 0, 4] with pc := 6 } =
      some ⟨1, [(0, 0x60), (1, 4), (2, 0x60)]⟩ := by decide

/-- CC-2, its CODECOPY. -/
theorem test_codecopy_size_zero :
    after (fun t => (t.mem.words, t.fault)) (probe [0x39] [0x100000, 0, 0]) = some (0, none) := by decide

/-- MEM-2 to MEM-4: a Word store is big-endian and grows memory to 64 bytes. -/
theorem test_memory_words :
    (match Memory.empty.storeWord 64 16
        (BitVec.ofNat 256 (be ((List.range 32).map fun i => BitVec.ofNat 8 (i + 1)))) with
      | .ok m => (m.words, m.byteAt 16, m.byteAt 47, m.byteAt 48)
      | .error _ => (0, 0, 0, 0)) = (2, 0x01, 0x20, 0) := by decide

/-- log 4: the step after reset runs the word that the host places. -/
theorem test_withFetchWord_runs :
    after (fun t => (t.stack, t.pc)) (State.reset.withFetchWord 16 0x2A60) = some ([0x2A], 2) := by decide

/-! ## Witnesses: the hypotheses of each statement are met, with a boundary case for each clause -/

/-- A build with room for two Words, 32 bytes of memory and 4 of return data, and code of at most 3 bytes. -/
def smallConfig : Config :=
  { Config.default with stackDepth := 2, memLimitBytes := 32, retLimitBytes := 4, codeMaxLen := 3 }

/-- A running state of that build. -/
def small (stack : List Word) : State :=
  { State.reset with cfg := smallConfig, stack := stack }

theorem witness_DecodeInvertsEncode :
    (Instr.push2 [1, 2]).complete = true ∧ Instr.add.complete = true ∧ (Instr.push2 []).wellFormed = true := by
  decide

theorem witness_EncodeInvertsDecode :
    decode [0x61, 1] = .ok (.push2 [1]) ∧ decode [0x60, 1, 2] = .ok (.push1 [1]) := ⟨rfl, rfl⟩

theorem witness_LengthFromOpcodeByte :
    encode (.push32 [7]) = 0x7F :: [7] ∧ (Instr.push32 [7]).pushForm = some (32, [7]) ∧
    encode .add = 0x01 :: [] ∧ Instr.add.pushForm = none ∧ Unassigned Config.default 0x5F ∧
    Unassigned Config.default 0xA0 ∧ Unassigned Config.default 0x04 := by
  simp [encode, Instr.pushForm, Unassigned, Config.default]

theorem witness_UnassignedBytesAreUnknownOpcodes :
    (probe [0x01, 0xFF] []).code[1]? = some 0xFF ∧ Unassigned (probe [0x01, 0xFF] []).cfg 0xFF ∧
    ¬ Unassigned (probe [] []).cfg 0x04 ∧ ¬ Unassigned (probe [] []).cfg 0xF3 := by
  simp [probe, Unassigned]

theorem witness_DecodeAdvancesPcBeforeLookup :
    (probe [0x05] []).code[(probe [0x05] []).pc]? = some 0x05 ∧ Unassigned (probe [0x05] []).cfg 0x05 ∧
    (probe [0x7F] []).code[(probe [0x7F] []).pc]? = some 0x7F ∧ ¬ Unassigned (probe [0x7F] []).cfg 0x7F := by
  simp [probe, State.reset, Unassigned]

theorem witness_BigEndianIntegers :
    65535 < 256 ^ 2 ∧ [(0xFF : Byte), 0xFF].length = 2 ∧ be [0xFF, 0xFF] = 65535 := by decide

theorem witness_PushLiteralAssembles :
    (∃ p ∈ Instr.pushFamily, p.1 = 1 ∧ 255 < 256 ^ p.1 ∧ 256 ^ p.1 ≤ 256) ∧
    (∃ p ∈ Instr.pushFamily, p.1 = 32 ∧ 2 ^ 256 - 1 < 256 ^ p.1 ∧ 256 ^ p.1 ≤ 2 ^ 256) :=
  ⟨⟨(1, .push1), by simp [Instr.pushFamily], rfl, by decide, by decide⟩,
    ⟨(32, .push32), by simp [Instr.pushFamily], rfl, by decide, by decide⟩⟩

theorem witness_DisassembleInvertsAssemble :
    ∀ i ∈ [Instr.push1 [5], .add, .stop], i.complete = true ∧ i.present Config.default = true := by decide

theorem witness_DisassemblyVisitsInstructionStarts :
    (1, ListingItem.data 0xFE) ∈ disassemble Config.default [0x01, 0xFE] ∧
    decodeFor Config.default ([0x01, 0xFE].drop 1) = .error (.unknownOpcode 0xFE) ∧
    (0, ListingItem.instr .add) ∈ disassemble Config.default [0x01, 0xFE] ∧
    decodeFor Config.default ([0x01, 0xFE].drop 0) = .ok .add :=
  ⟨by decide, rfl, by decide, rfl⟩

theorem witness_PushPrimitive :
    (-1 : Int) < 0 ∧ (2 : Int) ^ 256 > 2 ^ 256 - 1 ∧ (small [1, 2]).stack.length = (small [1, 2]).cfg.stackDepth ∧
    (0 : Int) ≤ 2 ^ 256 - 1 ∧ (small [1]).stack.length ≠ (small [1]).cfg.stackDepth := by decide

theorem witness_PopAndPeekPrimitives :
    (small []).stack = [] ∧ (small [7, 8]).stack = 7 :: [8] ∧ (small [7]).stack.length < 1 + 1 ∧
    (small [7, 8]).stack[1]? = some 8 := by decide

theorem witness_SwapPrimitive :
    (small [7]).stack.length < 1 + 1 ∧ (small []).stack.length < 0 + 1 ∧ 1 + 1 ≤ (small [7, 8]).stack.length ∧
    0 + 1 ≤ (small [7]).stack.length := by decide

theorem witness_LoadPrimitive :
    (-1 : Int) < 0 ∧ (2 : Int) ^ 256 > 2 ^ 256 - 1 ∧ (0 : Int) ≤ 2 ^ 256 - 1 ∧
    ((2 : Int) ^ 256 - 1 ≥ Memory.len ⟨1, [(31, 9)]⟩) := by decide

theorem witness_LoadRangePrimitive :
    (-1 : Int) < 0 ∧ (2 : Int) ^ 256 > 2 ^ 256 - 1 ∧
    ((0 : Int) < 2 ∧ (2 : Int) ≤ 2 ^ 256 - 1 ∧ ((2 : Int) ^ 256 - 1) + 2 > 2 ^ 256) ∧
    ((2 : Int) ^ 256 - 1) + 1 ≤ 2 ^ 256 := by decide

theorem witness_StorePrimitive :
    Memory.wf ⟨1, [(31, 9)]⟩ = true ∧ (-1 : Int) < 0 ∧ (256 : Int) > 255 ∧
    32 * max 1 (((32 : Int).toNat + 1 + 31) / 32) > 32 ∧ 32 * max 1 (((31 : Int).toNat + 1 + 31) / 32) ≤ 32 := by
  decide

theorem witness_StoreWordIsBigEndian :
    Memory.wf ⟨1, [(31, 9)]⟩ = true ∧ (2 : Int) ^ 256 > 2 ^ 256 - 1 ∧
    32 * max 1 (((1 : Int).toNat + 32 + 31) / 32) > 32 ∧ 32 * max 1 (((0 : Int).toNat + 32 + 31) / 32) ≤ 32 := by
  decide

theorem witness_LoadWordAfterStoreWord :
    (∃ g, Memory.empty.wf = true ∧ Memory.empty.storeWord 32 0 5 = .ok g) ∧
    (∃ g, (2 : Int) ^ 256 - 32 ≤ 2 ^ 256 - 32 ∧ Memory.empty.storeWord (2 ^ 256) (2 ^ 256 - 32) 5 = .ok g) ∧
    ((2 : Int) ^ 256 - 31 ≤ 2 ^ 256 - 1 ∧ (2 : Int) ^ 256 - 31 > 2 ^ 256 - 32) :=
  ⟨⟨_, rfl, rfl⟩, ⟨_, by decide, rfl⟩, by decide⟩

theorem witness_ActiveWordsFollowStores :
    ∃ m, runStores 64 Memory.empty [.byte 3 7, .word 32 9] = .ok m ∧
      ∀ op' ∈ [StoreOp.byte 3 7, .word 32 9], op'.lastByte ≤ (StoreOp.word 32 9).lastByte :=
  ⟨_, rfl, by decide⟩

theorem witness_JumpdestsAreMarkedInstructionStarts :
    3 ∈ jumpdests [0x61, 0x5B, 0x5B, 0x5B] ∧ [(0x5B : Byte)].length ≤ 1 := by decide

/-- For the statements over BinaryInstr, ArithmeticWrapsSigned and DivisionLaws. -/
theorem witness_BinaryInstr :
    (small [7, 1]).stack = 7 :: 1 :: [] ∧ (small [7, 1]).stack.length ≤ (small [7, 1]).cfg.stackDepth ∧
    (1 : Word) ≠ 0 ∧ (small []).stack = [] ∧ (small [7]).stack = [7] ∧ (small []).cfg.extDiv = false ∧
    ({ small [] with code := [0x04] } : State).code[(small []).pc]? = some 0x04 := by decide

theorem witness_IszeroResult :
    (small [7, 8]).stack = 7 :: [8] ∧ (small [7, 8]).stack.length ≤ (small [7, 8]).cfg.stackDepth ∧
    (small []).stack = [] := by decide

theorem witness_DivResult : (probe [] []).cfg.extDiv = true := by decide

theorem witness_PushResults :
    (2, Instr.push2) ∈ Instr.pushFamily ∧
    (probe [0x61, 1] []).code[(probe [0x61, 1] []).pc]? = some (BitVec.ofNat 8 (0x5F + 2)) ∧
    [(1 : Byte), 2].length ≤ 2 ∧ ([] : List Byte).length ≤ 2 ∧
    (small [7]).stack.length < (small [7]).cfg.stackDepth ∧
    (small [7, 8]).stack.length = (small [7, 8]).cfg.stackDepth := by
  refine ⟨by simp [Instr.pushFamily], ?_⟩
  decide

theorem witness_DupResults :
    (2, Instr.dup2) ∈ Instr.dupFamily ∧ (probe [] [7, 8]).stack[2 - 1]? = some 8 ∧
    (probe [] [7, 8]).stack.length < (probe [] [7, 8]).cfg.stackDepth ∧ (small [7]).stack.length < 2 ∧
    2 ≤ (small [7, 8]).stack.length ∧ (small [7, 8]).stack.length = (small [7, 8]).cfg.stackDepth := by decide

theorem witness_SwapResults :
    (1, Instr.swap1) ∈ Instr.swapFamily ∧ 1 + 1 ≤ (small [7, 8]).stack.length ∧ (small [7]).stack.length < 1 + 1 := by
  decide

theorem witness_Mstore8Result :
    (small [31, 9]).stack = 31 :: 9 :: [] ∧ (small [31, 9]).mem.wf = true ∧
    32 * max (small []).mem.words (((31 : Word).toNat + 1 + 31) / 32) ≤ (small []).cfg.memLimitBytes ∧
    (small [32, 9]).stack = 32 :: 9 :: [] ∧
    32 * max (small []).mem.words (((32 : Word).toNat + 1 + 31) / 32) > (small []).cfg.memLimitBytes ∧
    (small [7]).stack.length ≤ 1 := by decide

theorem witness_CodecopyResult :
    (small [32, 0, 0]).stack = 32 :: 0 :: 0 :: [] ∧ (0 : Word).toNat = 0 ∧
    (small [31, 0, 1]).stack = 31 :: 0 :: 1 :: [] ∧ (1 : Word).toNat ≠ 0 ∧ (small []).mem.wf = true ∧
    32 * max (small []).mem.words (((31 : Word).toNat + (1 : Word).toNat + 31) / 32) ≤ (small []).cfg.memLimitBytes ∧
    32 * max (small []).mem.words (((31 : Word).toNat + (2 : Word).toNat + 31) / 32) > (small []).cfg.memLimitBytes ∧
    (small [7, 8]).stack.length ≤ 2 := by decide

theorem witness_ReturnResult :
    (small [maxWord, 1]).stack = maxWord :: 1 :: [] ∧
    ((1 : Word).toNat ≤ (small []).cfg.retLimitBytes ∧ maxWord.toNat + (1 : Word).toNat ≤ 2 ^ 256) ∧
    ((0 : Word).toNat ≤ (small []).cfg.retLimitBytes ∧ (0 : Word).toNat = 0) ∧
    (5 : Word).toNat > (small []).cfg.retLimitBytes ∧
    ((2 : Word).toNat ≤ (small []).cfg.retLimitBytes ∧ (2 : Word).toNat ≠ 0 ∧
      maxWord.toNat + (2 : Word).toNat > 2 ^ 256) ∧ (small [7]).stack.length ≤ 1 := by decide

/-- For JumpResult and JumpiResult. -/
theorem witness_JumpResult :
    (probe [0x60, 0x5B, 0x5B] [2]).stack = 2 :: [] ∧ (2 : Word).toNat ∈ (probe [0x60, 0x5B, 0x5B] [2]).jd ∧
    (1 : Word).toNat ∉ (probe [0x60, 0x5B, 0x5B] [1]).jd ∧ (probe [] []).stack = [] ∧
    (probe [0x60, 0x5B, 0x5B] [2, 0]).stack = 2 :: 0 :: [] ∧ (0 : Word).toNat = 0 ∧ maxWord.toNat ≠ 0 ∧
    (probe [] [7]).stack.length ≤ 1 := by decide

/-- For the frames over `exec`: NoInstructionWritesRunInputs, OnlyStopAndReturnHalt and
OnlyPushAndJumpsWritePc. -/
theorem witness_frames :
    (∃ t, exec .stop (small []) = .next t ∧ t.halted ≠ (small []).halted) ∧
    (∃ t, exec .ret { small [31, 1] with mem := ⟨1, [(31, 9)]⟩ } = .next t ∧
      t.returndata ≠ (small []).returndata) ∧
    (∃ t, exec (.push2 [1]) (small []) = .next t ∧ (Instr.push2 [1]).pushForm = some (2, [1])) ∧
    (∃ t, exec .jump (probe [0x60, 0x5B, 0x5B] [2]) = .next t ∧ Instr.jump.pushForm = none ∧
      t.pc ≠ (probe [] []).pc) :=
  ⟨⟨_, rfl, by decide⟩, ⟨_, rfl, by decide⟩, ⟨_, rfl, rfl⟩, ⟨_, rfl, rfl, by decide⟩⟩

theorem witness_MemoryFrame :
    (∃ t, exec .add (small [1, 2]) = .next t ∧ Instr.add ≠ .mstore8 ∧ Instr.add ≠ .codecopy) ∧
    (∃ t, exec .mstore8 (small [31, 9]) = .next t ∧ (small [31, 9]).mem.wf = true ∧
      (small [31, 9]).stack = 31 :: 9 :: []) ∧
    (∃ t, exec .codecopy (probe [0x39] [31, 0, 1]) = .next t ∧ (probe [0x39] [31, 0, 1]).mem.wf = true ∧
      (probe [0x39] [31, 0, 1]).stack = 31 :: 0 :: 1 :: []) :=
  ⟨⟨_, rfl, by decide, by decide⟩, ⟨_, rfl, rfl, rfl⟩, ⟨_, rfl, rfl, rfl⟩⟩

/-- For StepRunsDecodedInstruction, ImplicitStop and UnknownOpcodeEndsRun. -/
theorem witness_Ready :
    (probe [0x01] []).Ready ∧ decodeFor (probe [0x01] []).cfg ((probe [0x01] []).code.drop 0) = .ok .add ∧
    (probe [] []).Ready ∧ (probe [] []).code.length ≤ (probe [] []).pc ∧ (probe [0xFE] []).Ready ∧
    (probe [0xFE] []).code[(probe [0xFE] []).pc]? = some 0xFE ∧ Unassigned (probe [0xFE] []).cfg 0xFE :=
  ⟨⟨rfl, rfl, rfl⟩, rfl, ⟨rfl, rfl, rfl⟩, by decide, ⟨rfl, rfl, rfl⟩, rfl, by simp [Unassigned]⟩

/-- A state whose budget is spent, and one whose coming sample of `ext_stop` is 1. -/
theorem witness_HaltedThenPoll :
    ({ small [] with halted := true } : State).halted = true ∧
    (small []).runState = .running ∧ (small []).halted = false ∧
    (({ small [] with hasBudget := true, maxSteps := 5, steps := 5 } : State).hasBudget = true ∧
      ({ small [] with hasBudget := true, maxSteps := 5, steps := 5 } : State).maxSteps ≤ 5) ∧
    ({ small [] with extStop := [true] } : State).extStop.head? = some true := by decide

/-- For RunningStepOutcomes, RunKeepsItsInputs, UnitOnlyErrorsAreUnreachable and BudgetBoundsRun. -/
theorem witness_running :
    ({ small [] with hasBudget := true } : State).runState = .running ∧
    ({ small [] with hasBudget := true } : State).hasBudget = true ∧ (small []).fault = none ∧
    ∃ t, step (small []) = .next t :=
  ⟨rfl, rfl, rfl, _, rfl⟩

/-- For OnlyTerminalStatesStop: both stops happen. -/
theorem witness_OnlyTerminalStatesStop :
    step { small [] with runState := .haltedSuccess } = .fault .runEnded ∧
    step { small [] with runState := .haltedFailure, requests := [⟨[0, 0, 0, 0], false, 0, []⟩] } =
      .refused (.codeTooLong 4) := ⟨rfl, rfl⟩

/-- For StartDiscardsOldContext: code of the largest length, and a step out of a terminal state. -/
theorem witness_StartDiscardsOldContext :
    ({ small [] with runState := .stepLimitExceeded, requests := [⟨[0, 0, 0], false, 0, []⟩] } : State).runState ≠
      .running ∧ ([0, 0, 0] : List Byte).length ≤ (small []).cfg.codeMaxLen ∧
    ({ small [7] with runState := .haltedFailure } : State).cfg = (small []).cfg ∧
    ({ small [7] with runState := .haltedFailure } : State).requests = (small []).requests ∧
    ∃ t, step { small [] with runState := .stepLimitExceeded, requests := [⟨[0, 0, 0], false, 0, []⟩] } = .next t :=
  ⟨by decide, by decide, rfl, rfl, _, rfl⟩

theorem witness_FetchWordRunsNext :
    decodeTableWord 8 0x04 = some .div ∧ decodeTableWord 264 0x7F = some (.push32 (List.replicate 32 0)) := by
  decide

/-- For StepKeepsInv and PcFitsPcBits. -/
theorem witness_StepKeepsInv : State.reset.Inv ∧ ∃ t, step State.reset = .next t :=
  ⟨⟨by decide, by decide, by decide, by decide, by decide, by decide, by decide, by decide, fun _ => rfl,
    fun h => (by cases h), fun _ => rfl, fun h => (by cases h), fun h => (by cases h), fun h => (by cases h),
    fun h => (by cases h)⟩, _, rfl⟩

theorem witness_PcStaysAtInstructionStart :
    (probe [0x60, 0x5B] []).PcAtStart ∧ ∃ t, step (probe [0x60, 0x5B] []) = .next t :=
  ⟨⟨rfl, .entry⟩, _, rfl⟩

theorem witness_ResultRecord :
    (small []).runState = .running ∧
    (({ small [] with runState := .haltedSuccess } : State).runState ≠ .running ∧
      ({ small [] with runState := .haltedSuccess } : State).fault = none) ∧
    (({ small [] with runState := .haltedFailure, fault := some (.stackUnderflow 1 0) } : State).runState ≠
        .running ∧
      ({ small [] with runState := .haltedFailure, fault := some (.stackUnderflow 1 0) } : State).fault =
        some (.stackUnderflow 1 0)) := by decide

/-- For FailedRunReturnsNoData: a failed state that satisfies the invariant. -/
theorem witness_FailedRunReturnsNoData :
    ({ State.reset with runState := .haltedFailure, fault := some (.stackUnderflow 1 0) } : State).Inv ∧
    ∃ r, ({ State.reset with runState := .haltedFailure, fault := some (.stackUnderflow 1 0) } : State).result =
      some r ∧ r.success = false :=
  ⟨⟨by decide, by decide, by decide, by decide, by decide, by decide, by decide, by decide, fun _ => rfl,
    fun h => (by cases h), fun h => (by rcases h with h | h <;> cases h), fun h => (by cases h),
    fun _ => ⟨_, rfl, rfl⟩, fun h => (by cases h), fun h => (by cases h)⟩, _, rfl, rfl⟩

end Sys2Proof.Tests
end

section
/-! ## Byte order (spec/00_scope.md R13): `be` and `beBytes` are inverse to each other

A leading byte weighs `256 ^ s.length` in `be (b :: s)`, and `beBytes` splits off the same weight by division; both
directions of the inverse are inductions over that one step. -/

namespace Sys2Proof

@[simp] theorem be_nil : be [] = 0 := rfl

/-- The fold behind `be`, for any accumulator: reading `s` after `acc` shifts `acc` by `s.length` bytes. -/
theorem foldl_be (s : List Byte) (acc : Nat) :
    s.foldl (fun acc b => 256 * acc + b.toNat) acc = acc * 256 ^ s.length + be s := by
  induction s generalizing acc with
  | nil => simp
  | cons b s ih =>
    rw [be, List.foldl_cons, List.foldl_cons, ih, ih (256 * 0 + b.toNat), List.length_cons]
    ring

@[simp] theorem be_cons (b : Byte) (s : List Byte) : be (b :: s) = b.toNat * 256 ^ s.length + be s := by
  rw [be, List.foldl_cons, foldl_be, Nat.mul_zero, Nat.zero_add]

theorem be_lt (s : List Byte) : be s < 256 ^ s.length := by
  induction s with
  | nil => simp
  | cons b s ih =>
    calc be (b :: s) = b.toNat * 256 ^ s.length + be s := be_cons b s
      _ < (b.toNat + 1) * 256 ^ s.length := by rw [Nat.succ_mul]; omega
      _ ≤ 256 * 256 ^ s.length := Nat.mul_le_mul_right _ b.isLt
      _ = 256 ^ (b :: s).length := by rw [List.length_cons, pow_succ']

theorem be_eq_sum (s : List Byte) :
    be s = ((List.range s.length).map fun i => (s.getD i 0).toNat * 256 ^ (s.length - 1 - i)).sum := by
  induction s with
  | nil => rfl
  | cons b s ih =>
    have weight (i : Nat) : s.length - 1 - i = s.length - (i + 1) := by omega
    rw [be_cons, ih, List.length_cons, List.range_succ_eq_map, List.map_cons, List.map_map, List.sum_cons]
    simp [Function.comp_def, weight]

@[simp] theorem beBytes_zero (v : Nat) : beBytes 0 v = [] := rfl

theorem beBytes_succ (n v : Nat) : beBytes (n + 1) v = BitVec.ofNat 8 (v / 256 ^ n) :: beBytes n v := rfl

theorem be_beBytes (n v : Nat) : be (beBytes n v) = v % 256 ^ n := by
  induction n with
  | zero => simp [Nat.mod_one]
  | succ n ih =>
    rw [beBytes_succ, be_cons, ih, Machine.beBytes_length, BitVec.toNat_ofNat, pow_succ 256, Nat.mod_mul,
      Nat.add_comm, Nat.mul_comm]

/-- `beBytes n` sees `v` modulo `256 ^ n` only. -/
theorem beBytes_mul_add (n a v : Nat) : beBytes n (a * 256 ^ n + v) = beBytes n v := by
  induction n generalizing a with
  | zero => rfl
  | succ n ih =>
    have shift : a * 256 ^ (n + 1) = a * 256 * 256 ^ n := by ring
    have head : (a * 256 * 256 ^ n + v) / 256 ^ n = a * 256 + v / 256 ^ n := by
      rw [Nat.add_comm, Nat.add_mul_div_right _ _ (by positivity), Nat.add_comm]
    rw [beBytes_succ, beBytes_succ, shift, ih, head]
    congr 1
    apply BitVec.eq_of_toNat_eq
    simp

theorem beBytes_be (s : List Byte) : beBytes s.length (be s) = s := by
  induction s with
  | nil => rfl
  | cons b s ih =>
    have head : (b.toNat * 256 ^ s.length + be s) / 256 ^ s.length = b.toNat := by
      rw [Nat.add_comm, Nat.add_mul_div_right _ _ (by positivity), Nat.div_eq_of_lt (be_lt s), Nat.zero_add]
    rw [List.length_cons, be_cons, beBytes_succ, beBytes_mul_add, head, ih, BitVec.ofNat_toNat,
      BitVec.setWidth_eq]

/-- Settles O7: the sum by induction over the bytes, existence and uniqueness from the two inverse laws. -/
theorem bigEndianIntegers : Obligations.BigEndianIntegers :=
  ⟨be_eq_sum, fun n v hv =>
    ⟨Machine.beBytes_length n v, by rw [be_beBytes, Nat.mod_eq_of_lt hv],
      fun s hlen hbe => by rw [← hlen, ← hbe, beBytes_be]⟩⟩

end Sys2Proof
end

section
/-! ## The primitives of the Word Stack (spec/10_state.md R22 to R25), from the inversion lemma of each -/

namespace Sys2Proof.Machine

/-- Settles O11: the three cases of `push_cases`; a value in range is the number of the Word pushed. -/
theorem pushPrimitive : Obligations.PushPrimitive := by
  intro v s
  rcases push_cases v s with ⟨hv, hp⟩ | ⟨hv, hfull, hp⟩ | ⟨hv, hroom, hp⟩
  · exact ⟨fun _ => hp, fun _ _ => by omega, fun _ _ => by omega⟩
  · exact ⟨fun h => absurd h hv, fun _ _ _ => hp, fun _ _ h => absurd hfull h⟩
  · have hw : ((BitVec.ofInt 256 v).toNat : Int) = v := by
      rw [BitVec.toNat_ofInt]
      omega
    exact ⟨fun h => absurd h hv, fun _ _ h => absurd h hroom, fun _ _ _ => ⟨_, hw, hp⟩⟩

/-- Settles O12. -/
theorem popAndPeekPrimitives : Obligations.PopAndPeekPrimitives := by
  refine ⟨fun s => pop_nil, fun s v rest => pop_cons, fun i s hi => ?_, fun i s v hv => ?_⟩
  · rcases peek_cases i s with ⟨_, hp⟩ | ⟨v, hv, _⟩
    · exact hp
    · have := (List.getElem?_eq_some_iff.1 hv).1
      omega
  · rcases peek_cases i s with ⟨hi, _⟩ | ⟨w, hw, hp⟩
    · rw [List.getElem?_eq_none hi] at hv
      cases hv
    · cases hv.symm.trans hw
      exact hp

/-- Settles O13: the stack left is `(x.set 0 x[i]).set i x[0]`, read back position by position. -/
theorem swapPrimitive : Obligations.SwapPrimitive := by
  intro i s
  rcases swap_cases i s with ⟨hi, hs⟩ | ⟨top, v, htop, hv, hs⟩
  · exact ⟨fun _ => hs, fun _ => by omega⟩
  · obtain ⟨h0, rfl⟩ := List.getElem?_eq_some_iff.1 htop
    obtain ⟨hi, rfl⟩ := List.getElem?_eq_some_iff.1 hv
    refine ⟨fun _ => by omega, fun _ => ⟨_, hs, by simp, ?_, by simp [h0, hi], fun j hj0 hji => ?_, ?_⟩⟩
    · by_cases h : i = 0
      · simp [h, h0]
      · simp [h, h0, hi]
    · simp [hj0.symm, hji.symm]
    · rintro rfl
      simp

end Sys2Proof.Machine
end

section
/-! ## What an instruction can do, once for all instructions

Every operation of the model is read as a two-sided postcondition (`Res.Meets`), sequenced by `Res.Meets.andThen`.
An instruction writes the stack and the memory within their bounds (`DataWrites`), may move pc (`PcAfter`), and then
goes on, fails, or halts (`ExecEffect`); the frames and the invariant of the state follow from that. -/

namespace Sys2Proof.Machine

/-! ### Postconditions of a part of an instruction -/

/-- What `r` answers meets `Q` when it answers a value; otherwise it raises an error of an instruction, one that ends
the run in halted-failure (60_exceptions.md R310), and leaves a state that meets `E`. -/
def Res.Meets {α : Type} (Q : α → State → Prop) (E : State → Prop) : Res α → Prop
  | .ok v t => Q v t
  | .raised e t => e.endState = .haltedFailure ∧ E t

theorem Res.Meets.andThen {α β : Type} {P : α → State → Prop} {Q : β → State → Prop} {E : State → Prop}
    {r : Res α} {f : α → State → Res β} (hr : r.Meets P E) (hf : ∀ v t, P v t → (f v t).Meets Q E) :
    (r.andThen f).Meets Q E := by
  cases r with
  | ok v t => exact hf v t hr
  | raised e t => exact hr

theorem Res.Meets.mono {α : Type} {P Q : α → State → Prop} {E : State → Prop} {r : Res α}
    (hr : r.Meets P E) (hPQ : ∀ v t, P v t → Q v t) : r.Meets Q E := by
  cases r with
  | ok v t => exact hPQ v t hr
  | raised e t => exact hr

/-! ### Writes of the stack and the memory -/

/-- `DataWrites s t`: `t` is `s` but for the stack and the memory, and neither leaves its bounds (10_state.md R21,
20_memory.md R60, R66) if it was in them. -/
inductive DataWrites (s : State) : State → Prop
  | mk (stack : List Word) (mem : Memory)
      (stackBounded : s.stack.length ≤ s.cfg.stackDepth → stack.length ≤ s.cfg.stackDepth)
      (memGood : s.mem.wf = true → s.mem.len ≤ s.cfg.memLimitBytes →
        mem.wf = true ∧ mem.len ≤ s.cfg.memLimitBytes) :
      DataWrites s ((s.withStack stack).withMem mem)

theorem DataWrites.refl (s : State) : DataWrites s s :=
  .mk s.stack s.mem id fun hwf hlen => ⟨hwf, hlen⟩

theorem DataWrites.trans {s t u : State} (hst : DataWrites s t) (htu : DataWrites t u) : DataWrites s u := by
  obtain ⟨stack₁, mem₁, hstack₁, hmem₁⟩ := hst
  obtain ⟨stack₂, mem₂, hstack₂, hmem₂⟩ := htu
  exact .mk stack₂ mem₂ (fun h => hstack₂ (hstack₁ h)) fun hwf hlen =>
    hmem₂ (hmem₁ hwf hlen).1 (hmem₁ hwf hlen).2

theorem DataWrites.withStack {s : State} {stack : List Word}
    (h : s.stack.length ≤ s.cfg.stackDepth → stack.length ≤ s.cfg.stackDepth) :
    DataWrites s (s.withStack stack) :=
  .mk stack s.mem h fun hwf hlen => ⟨hwf, hlen⟩

theorem DataWrites.withMem {s : State} {mem : Memory}
    (h : s.mem.wf = true → mem.wf = true ∧ mem.len ≤ s.cfg.memLimitBytes) : DataWrites s (s.withMem mem) :=
  .mk s.stack mem id fun hwf _ => h hwf

theorem DataWrites.withPc {s t : State} (h : DataWrites s t) (p : Nat) : DataWrites (s.withPc p) (t.withPc p) := by
  obtain ⟨stack, mem, hstack, hmem⟩ := h
  exact .mk stack mem hstack hmem

/-- Whatever `r` answers, it has written the stack and the memory of `s` alone. -/
abbrev Res.Writes {α : Type} (s : State) (r : Res α) : Prop :=
  r.Meets (fun _ => DataWrites s) (DataWrites s)

section
variable {s t : State}

theorem pop_writes (h : DataWrites s t) : (pop t).Writes s := by
  rcases pop_cases t with ⟨_, hp⟩ | ⟨v, rest, hstack, hp⟩ <;> rw [hp]
  · exact ⟨rfl, h⟩
  · refine h.trans (.withStack fun hb => ?_)
    rw [hstack, List.length_cons] at hb
    omega

theorem push_writes {v : Int} (h : DataWrites s t) : (push v t).Writes s := by
  rcases push_cases v t with ⟨_, hp⟩ | ⟨_, _, hp⟩ | ⟨_, hroom, hp⟩ <;> rw [hp]
  · exact ⟨rfl, h⟩
  · exact ⟨rfl, h⟩
  · refine h.trans (.withStack fun hb => ?_)
    rw [List.length_cons]
    omega

theorem pushWord_writes {v : Word} (h : DataWrites s t) : (pushWord v t).Writes s :=
  push_writes h

theorem peek_writes {i : Nat} (h : DataWrites s t) : (peek i t).Writes s := by
  rcases peek_cases i t with ⟨_, hp⟩ | ⟨v, _, hp⟩ <;> rw [hp]
  · exact ⟨rfl, h⟩
  · exact h

theorem swap_writes {i : Nat} (h : DataWrites s t) : (swap i t).Writes s := by
  rcases swap_cases i t with ⟨_, hs⟩ | ⟨top, v, _, _, hs⟩ <;> rw [hs]
  · exact ⟨rfl, h⟩
  · exact h.trans (.withStack fun hb => by simpa using hb)

theorem dup_writes {n : Nat} (h : DataWrites s t) : (dup n t).Writes s :=
  (peek_writes h).andThen fun _ _ hu => pushWord_writes hu

theorem binary_writes {f : Word → Word → Word} (h : DataWrites s t) : (binary f t).Writes s :=
  (pop_writes h).andThen fun _ _ hu => (pop_writes hu).andThen fun _ _ hw => pushWord_writes hw

end

/-! ### Writes of memory, and RETURN's range -/

theorem checkMem_error {o : Int} {e : ErrorInfo} (h : checkMem o = .error e) : e.endState = .haltedFailure := by
  rcases checkMem_cases o with ⟨_, hc⟩ | ⟨_, hc⟩ <;> rw [hc] at h <;> cases h
  rfl

theorem Memory.grow_error {m : Memory} {limit o w : Nat} {e : ErrorInfo} (h : m.grow limit o w = .error e) :
    e.endState = .haltedFailure := by
  rcases m.grow_cases limit o w with ⟨_, hg⟩ | ⟨_, hg⟩ <;> rw [hg] at h <;> cases h
  rfl

theorem Memory.store_error {m : Memory} {limit : Nat} {o b : Int} {e : ErrorInfo}
    (h : m.store limit o b = .error e) : e.endState = .haltedFailure := by
  unfold Memory.store at h
  split at h
  · next hc => cases h; exact checkMem_error hc
  · split at h
    · cases h; rfl
    · split at h
      · next hg => cases h; exact Memory.grow_error hg
      · cases h

theorem Memory.load_error {m : Memory} {o : Int} {e : ErrorInfo} (h : m.load o = .error e) :
    e.endState = .haltedFailure := by
  unfold Memory.load at h
  split at h
  · next hc => cases h; exact checkMem_error hc
  · cases h

/-- R64: the loop of `loadRange` reads one byte a turn, or raises `load`'s error. -/
theorem Memory.loadEach_answer (m : Memory) (n : Nat) (o : Int) :
    (∃ bs, m.loadEach n o = .ok bs ∧ bs.length = n) ∨
    (∃ e, m.loadEach n o = .error e ∧ e.endState = .haltedFailure) := by
  induction n generalizing o with
  | zero => exact .inl ⟨[], rfl, rfl⟩
  | succ n ih =>
    rw [Memory.loadEach]
    rcases hl : m.load o with e | b
    · exact .inr ⟨e, rfl, Memory.load_error hl⟩
    · rcases ih (o + 1) with ⟨bs, hbs, hlen⟩ | ⟨e, he, hend⟩
      · exact .inl ⟨b :: bs, by simp only [hbs], by rw [List.length_cons, hlen]⟩
      · exact .inr ⟨e, by simp only [he], hend⟩

theorem Memory.loadRange_answer (m : Memory) (o n : Int) :
    (∃ bs, m.loadRange o n = .ok bs ∧ bs.length = n.toNat) ∨
    (∃ e, m.loadRange o n = .error e ∧ e.endState = .haltedFailure) := by
  unfold Memory.loadRange
  split
  · next hc => exact .inr ⟨_, rfl, checkMem_error hc⟩
  · next hc => exact .inr ⟨_, rfl, checkMem_error hc⟩
  · exact m.loadEach_answer n.toNat o

section
variable {s t : State}

theorem storeByte_writes {o b : Int} (h : DataWrites s t) : (storeByte o b t).Writes s := by
  rcases storeByte_cases o b t with ⟨e, he, hs⟩ | ⟨m, hm, hs⟩ <;> rw [hs]
  · exact ⟨Memory.store_error he, h⟩
  · refine h.trans (.withMem fun hwf => ?_)
    obtain ⟨hgood, _, hlen⟩ := Memory.store_wf hwf hm
    exact ⟨hgood, hlen⟩

theorem copyCode_writes {d o n : Nat} (h : DataWrites s t) : (copyCode d o n t).Writes s := by
  rcases copyCode_cases d o n t with ⟨_, hc⟩ | ⟨_, _, hc⟩ | ⟨_, g, hg, hc⟩ <;> rw [hc]
  · exact h
  · exact ⟨rfl, h⟩
  · refine h.trans (.withMem fun hwf => ?_)
    obtain ⟨hgood, _, hlen⟩ := copyCode_wf hwf hg (codeRange_length t.code o n)
    exact ⟨hgood, hlen⟩

/-- R270, R271: the range that RETURN captures fits the capacity of the return data. -/
theorem captureRange_meets {o n : Word} (h : DataWrites s t) :
    (captureRange o n t).Meets (fun r u => r.length ≤ t.cfg.retLimitBytes ∧ DataWrites s u) (DataWrites s) := by
  rcases captureRange_cases o n t with ⟨_, hc⟩ | ⟨hn, hc⟩ <;> rw [hc]
  · exact ⟨rfl, h⟩
  · rcases t.mem.loadRange_answer o.toNat n.toNat with ⟨bs, hl, hlen⟩ | ⟨e, hl, hend⟩ <;> rw [hl]
    · exact ⟨by rw [hlen]; exact hn, h⟩
    · exact ⟨hend, h⟩

end

/-! ### The effect of an instruction -/

/-- R30: where pc may stand after `i` has executed in `s`. -/
inductive PcAfter (i : Instr) (s : State) : Nat → Prop
  | stays : i.pushForm = none → PcAfter i s s.pc
  | overImmediate {n : Nat} {imm : List Byte} : i.pushForm = some (n, imm) → PcAfter i s (s.pc + n)
  | jump {p : Nat} : i = .jump ∨ i = .jumpi → p ∈ s.jd → PcAfter i s p

/-- What `i`, executed in `s`, can answer as its next state. -/
inductive ExecEffect : Instr → State → State → Prop
  /-- The run goes on. -/
  | writes {i : Instr} {s t : State} {p : Nat} : PcAfter i s p → DataWrites (s.withPc p) t → ExecEffect i s t
  /-- An error is taken after the writes before it (R311). -/
  | fails {i : Instr} {s u : State} {p : Nat} {e : ErrorInfo} : PcAfter i s p → DataWrites (s.withPc p) u →
      e.endState = .haltedFailure → ExecEffect i s (u.takeError e)
  /-- STOP, 41_stop.md R150. -/
  | stops {s : State} : ExecEffect .stop s s.halt
  /-- RETURN, 48_return.md R270. -/
  | returns {s u : State} {r : List Byte} : DataWrites s u → r.length ≤ s.cfg.retLimitBytes →
      ExecEffect .ret s (u.withReturndata r).halt

section
variable {i : Instr} {s t : State} {p : Nat} {r : Res Unit}

theorem execEffect_of_meets (hp : PcAfter i s p)
    (hr : r.Meets (fun _ => ExecEffect i s) (DataWrites (s.withPc p))) (ht : r.outcome = .next t) :
    ExecEffect i s t := by
  cases r with
  | ok v u => cases ht; exact hr
  | raised e u => cases ht; exact .fails hp hr.2 hr.1

/-- An instruction of format OP whose statements write the stack and the memory alone. -/
theorem execEffect_of_writes (hi : i.pushForm = none) (hr : r.Writes s) (ht : r.outcome = .next t) :
    ExecEffect i s t :=
  execEffect_of_meets (.stays hi) (hr.mono fun _ _ hu => .writes (.stays hi) hu) ht

/-- R245: a jump that is taken goes to a member of `JD`. -/
theorem jumpTo_meets {w : Word} (hi : i = .jump ∨ i = .jumpi) (h : DataWrites s t) :
    (jumpTo w t).Meets (fun _ => ExecEffect i s) (DataWrites s) := by
  have hjd : t.jd = s.jd := by obtain ⟨⟩ := h; rfl
  rcases jumpTo_cases w t with ⟨hmem, hj⟩ | ⟨_, hj⟩ <;> rw [hj]
  · exact .writes (.jump hi (hjd ▸ hmem)) (h.withPc w.toNat)
  · exact ⟨rfl, h⟩

theorem execPush_effect {n : Nat} {imm : List Byte} (hi : i.pushForm = some (n, imm))
    (ht : (pushImmediate n imm s).outcome = .next t) : ExecEffect i s t := by
  have hpush : (pushImmediate n imm s).Writes (s.withPc (s.pc + n)) := push_writes (.refl _)
  exact execEffect_of_meets (.overImmediate hi) (hpush.mono fun _ _ hu => .writes (.overImmediate hi) hu) ht

theorem execMstore8_effect (ht : execMstore8 s = .next t) : ExecEffect .mstore8 s t :=
  execEffect_of_writes rfl ((pop_writes (.refl s)).andThen fun _ _ ho => (pop_writes ho).andThen fun _ _ hv =>
    storeByte_writes hv) ht

theorem execCodecopy_effect (ht : execCodecopy s = .next t) : ExecEffect .codecopy s t :=
  execEffect_of_writes rfl ((pop_writes (.refl s)).andThen fun _ _ hd => (pop_writes hd).andThen fun _ _ ho =>
    (pop_writes ho).andThen fun _ _ hn => copyCode_writes hn) ht

theorem execIszero_effect (ht : execIszero s = .next t) : ExecEffect .iszero s t :=
  execEffect_of_writes rfl ((pop_writes (.refl s)).andThen fun _ _ ha => pushWord_writes ha) ht

theorem execJump_effect (ht : execJump s = .next t) : ExecEffect .jump s t :=
  execEffect_of_meets (.stays rfl) ((pop_writes (.refl s)).andThen fun _ _ hw => jumpTo_meets (.inl rfl) hw) ht

theorem execJumpi_effect (ht : execJumpi s = .next t) : ExecEffect .jumpi s t := by
  refine execEffect_of_meets (.stays rfl) ((pop_writes (.refl s)).andThen fun w _ hw =>
    (pop_writes hw).andThen fun c u hu => ?_) ht
  by_cases hc : c ≠ 0
  · rw [if_pos hc]
    exact jumpTo_meets (.inr rfl) hu
  · rw [if_neg hc]
    exact .writes (.stays rfl) hu

theorem execReturn_effect (ht : execReturn s = .next t) : ExecEffect .ret s t := by
  refine execEffect_of_meets (.stays rfl) ((pop_writes (.refl s)).andThen fun o _ ho =>
    (pop_writes ho).andThen fun n u hn => (captureRange_meets hn).andThen fun r w hr => ?_) ht
  have hcfg : u.cfg = s.cfg := by obtain ⟨⟩ := hn; rfl
  exact .returns hr.2 (hcfg ▸ hr.1)

theorem execBinary_effect {f : Word → Word → Word} (hi : i.pushForm = none)
    (ht : (binary f s).outcome = .next t) : ExecEffect i s t :=
  execEffect_of_writes hi (binary_writes (.refl s)) ht

end

theorem dupFamily_form : ∀ p ∈ Instr.dupFamily, p.2.pushForm = none := by decide

theorem swapFamily_form : ∀ p ∈ Instr.swapFamily, p.2.pushForm = none := by decide

/-- `exec` inverted, for all instructions: everything an instruction can do. -/
theorem exec_effect {i : Instr} {s t : State} (ht : exec i s = .next t) : ExecEffect i s t := by
  rcases Instr_families i with hi | ⟨p, hp, imm, rfl⟩ | ⟨p, hp, rfl⟩ | ⟨p, hp, rfl⟩
  · simp only [List.mem_cons, List.not_mem_nil, or_false] at hi
    rcases hi with rfl | rfl | rfl | rfl | rfl | rfl | rfl | rfl | rfl | rfl | rfl | rfl | rfl | rfl | rfl | rfl | rfl
    · cases ht; exact .stops
    · exact execBinary_effect rfl ht
    · exact execBinary_effect rfl ht
    · exact execBinary_effect rfl ht
    · exact execBinary_effect rfl ht
    · exact execBinary_effect rfl ht
    · exact execBinary_effect rfl ht
    · exact execBinary_effect rfl ht
    · exact execBinary_effect rfl ht
    · exact execBinary_effect rfl ht
    · exact execIszero_effect ht
    · exact execCodecopy_effect ht
    · exact execMstore8_effect ht
    · exact execJump_effect ht
    · exact execJumpi_effect ht
    · cases ht; exact .writes (.stays rfl) (.refl s)
    · exact execReturn_effect ht
  · rw [exec_pushFamily p hp] at ht
    obtain ⟨_, _, hform⟩ := pushFamily_form p hp
    exact execPush_effect (hform imm) ht
  · obtain ⟨_, _, hexec⟩ := exec_dupFamily p hp
    rw [hexec] at ht
    exact execEffect_of_writes (dupFamily_form p hp) (dup_writes (.refl s)) ht
  · obtain ⟨_, _, hexec⟩ := exec_swapFamily p hp
    rw [hexec] at ht
    exact execEffect_of_writes (swapFamily_form p hp) (swap_writes (.refl s)) ht

end Sys2Proof.Machine
end

section
/-! ## What an instruction leaves unchanged (spec/10_state.md R30, R33 to R37, R40), read off `exec_effect` -/

namespace Sys2Proof.Machine

/-- Settles O36: none of the four effects writes one of these fields. -/
theorem noInstructionWritesRunInputs : Obligations.NoInstructionWritesRunInputs := by
  intro i s t ht
  rcases exec_effect ht with ⟨_, ⟨⟩⟩ | ⟨_, ⟨⟩, _⟩ | ⟨⟩ | ⟨⟨⟩, _⟩ <;>
    exact ⟨rfl, rfl, rfl, rfl, rfl, rfl, rfl, rfl⟩

/-- Settles O38: only the effects `stops` and `returns` write `halted`, and only `returns` the return data. -/
theorem onlyStopAndReturnHalt : Obligations.OnlyStopAndReturnHalt := by
  intro i s t ht
  cases exec_effect ht with
  | writes _ hw => obtain ⟨⟩ := hw; exact ⟨fun h => absurd rfl h, fun h => absurd rfl h⟩
  | fails _ hw _ => obtain ⟨⟩ := hw; exact ⟨fun h => absurd rfl h, fun h => absurd rfl h⟩
  | stops => exact ⟨fun _ => ⟨.inl rfl, rfl⟩, fun h => absurd rfl h⟩
  | returns _ _ => exact ⟨fun _ => ⟨.inr rfl, rfl⟩, fun _ => ⟨rfl, rfl⟩⟩

/-- R30: pc after an instruction's next state. -/
theorem exec_pcAfter {i : Instr} {s t : State} (ht : exec i s = .next t) : PcAfter i s t.pc := by
  cases exec_effect ht with
  | writes hp hw => obtain ⟨⟩ := hw; exact hp
  | fails hp hw _ => obtain ⟨⟩ := hw; exact hp
  | stops => exact .stays rfl
  | returns hw _ => obtain ⟨⟩ := hw; exact .stays rfl

/-- Settles O39: the three ways of `PcAfter`. -/
theorem onlyPushAndJumpsWritePc : Obligations.OnlyPushAndJumpsWritePc := by
  intro i s t ht
  have hp := exec_pcAfter ht
  generalize t.pc = q at hp
  cases hp with
  | stays hi => exact ⟨by simp [hi], fun _ h => absurd rfl h⟩
  | overImmediate hi =>
    refine ⟨fun n imm h => ?_, by simp [hi]⟩
    cases hi.symm.trans h
    rfl
  | jump hi hmem =>
    have hform : i.pushForm = none := by rcases hi with rfl | rfl <;> rfl
    exact ⟨by simp [hform], fun _ _ => ⟨hi, hmem⟩⟩

/-- Settles O52: the halted test and the poll's limit end the run and count no step, an unknown opcode and the two
cases that execute an instruction count one. -/
theorem runKeepsItsInputs : Obligations.RunKeepsItsInputs := by
  intro s t hr ht
  rcases step_running_cases hr with ⟨hh, h⟩ | ⟨hh, _, h⟩ | ⟨hh, _, op, _, h⟩ | ⟨hh, _, _, h⟩ | ⟨hh, _, i, _, h⟩ <;>
    rw [h] at ht
  · cases ht
    simp [hh]
  · cases ht
    simp [hh, ErrorInfo.endState]
  · cases ht
    simp [hh]
  all_goals
    obtain ⟨hcfg, hcode, hjd, hsteps, hbudget, hmax, hext, hreq⟩ := noInstructionWritesRunInputs _ _ _ ht
    simp [hh, hcfg, hcode, hjd, hsteps, hbudget, hmax, hext, hreq]

end Sys2Proof.Machine
end

section
/-! ## The invariant of the state (spec/10_state.md R20 to R39, R51): every step keeps `State.Inv` -/

namespace Sys2Proof.Machine

/-- R240: the analyzer marks offsets below `L` only. -/
theorem scanFrom_lt {code : List Byte} {fuel i p : Nat} (hp : p ∈ scanFrom code fuel i) : p < code.length := by
  induction fuel generalizing i with
  | zero => cases hp
  | succ fuel ih =>
    rw [scanFrom] at hp
    split at hp
    · cases hp
    · next b hb =>
      split at hp
      · rcases List.mem_cons.1 hp with rfl | hp
        · exact (List.getElem?_eq_some_iff.1 hb).1
        · exact ih hp
      · exact ih hp

theorem jumpdests_lt {code : List Byte} {p : Nat} (hp : p ∈ jumpdests code) : p < code.length :=
  scanFrom_lt hp

theorem pushForm_le {i : Instr} {n : Nat} {imm : List Byte} (h : i.pushForm = some (n, imm)) : n ≤ 32 := by
  cases i <;> simp only [Instr.pushForm, reduceCtorEq, Option.some.injEq, Prod.mk.injEq] at h <;> omega

namespace State.Inv

variable {s t : State}

theorem withPc (h : s.Inv) {p : Nat} (hp : p ≤ s.code.length + 32) : (s.withPc p).Inv :=
  { h with pcBounded := hp }

theorem dataWrites (h : s.Inv) (hw : DataWrites s t) : t.Inv := by
  obtain ⟨stack, mem, hstack, hmem⟩ := hw
  obtain ⟨hwf, hlen⟩ := hmem h.memWf h.memBounded
  exact { h with stackBounded := hstack h.stackBounded, memWf := hwf, memBounded := hlen }

/-- R310: an error of an instruction or of decode ends a run that has not halted. -/
theorem takeError (h : s.Inv) (hh : s.halted = false) {e : ErrorInfo} (he : e.endState = .haltedFailure) :
    (s.takeError e).Inv :=
  { h with
    haltedNotFailed := by simp [hh]
    noFaultUnlessEnded := by simp [he]
    successIsHalted := by simp [he]
    failureHasFault := fun _ => ⟨e, rfl, he⟩
    limitHasFault := by simp [he] }

/-- 60_exceptions.md R320: the poll ends a run that has not halted. -/
theorem limitError (h : s.Inv) (hh : s.halted = false) (limit : Option Nat) (n : Nat) :
    (s.afterPoll.takeError (.executionLimitReached limit n)).Inv :=
  { h with
    haltedNotFailed := by simp [hh]
    noFaultUnlessEnded := by simp [ErrorInfo.endState]
    successIsHalted := by simp [ErrorInfo.endState]
    failureHasFault := by simp [ErrorInfo.endState]
    limitHasFault := fun _ => ⟨limit, n, rfl⟩ }

/-- STOP and RETURN (R33, R34) in a running state. -/
theorem halt (h : s.Inv) (hr : s.runState = .running) {r : List Byte} (hlen : r.length ≤ s.cfg.retLimitBytes) :
    (s.withReturndata r).halt.Inv :=
  { h with
    returndataBounded := hlen
    returndataWhenHalted := by simp
    haltedNotFailed := fun _ => .inl hr
    successIsHalted := fun _ => rfl }

/-- R130: the iteration after a halting instruction ends the run. -/
theorem succeed (h : s.Inv) (hr : s.runState = .running) (hh : s.halted = true) :
    ({ s with runState := .haltedSuccess } : State).Inv :=
  { h with
    haltedNotFailed := fun _ => .inr rfl
    noFaultUnlessEnded := fun _ => h.noFaultUnlessEnded (.inl hr)
    successIsHalted := fun _ => hh
    failureHasFault := by simp
    limitHasFault := by simp }

/-- A poll that passes leaves a step of the budget to count. -/
theorem counted (h : s.Inv) (hl : s.limitReached = false) : s.counted.Inv :=
  { h with
    budgetKept := fun (hb : s.hasBudget = true) => by
      simp only [State.limitReached, hb, Bool.true_and, Bool.or_eq_false_iff, decide_eq_false_iff_not] at hl
      exact Nat.lt_of_not_le hl.1 }

/-- 70_reset_and_hazards.md R340: a start keeps the parameters, and nothing else of the old context. -/
theorem start (h : s.Inv) {r : RunRequest} (later : List RunRequest) (hlen : r.code.length ≤ s.cfg.codeMaxLen) :
    (State.start s.cfg r later).Inv where
  cfgWf := h.cfgWf
  codeBounded := hlen
  pcBounded := Nat.zero_le _
  stackBounded := Nat.zero_le _
  memWf := Memory.empty_wf
  memBounded := Nat.zero_le _
  returndataBounded := Nat.zero_le _
  jdIsJumpdests := rfl
  returndataWhenHalted _ := rfl
  haltedNotFailed h := nomatch h
  noFaultUnlessEnded _ := rfl
  successIsHalted h := nomatch h
  failureHasFault h := nomatch h
  limitHasFault h := nomatch h
  budgetKept _ := Nat.zero_le _

/-- R31: a PUSHn moves pc by at most 32 past the opcode byte, and a jump stays inside the code. -/
theorem pcAfter_le (h : s.Inv) {i : Instr} {p : Nat} (hp : PcAfter i s p)
    (hpc : s.pc ≤ s.code.length ∨ i.pushForm = none) : p ≤ s.code.length + 32 := by
  cases hp with
  | stays _ => exact h.pcBounded
  | overImmediate hi =>
    have hn := pushForm_le hi
    rcases hpc with hpc | hno
    · omega
    · rw [hi] at hno
      cases hno
  | jump _ hmem =>
    rw [h.jdIsJumpdests] at hmem
    have := jumpdests_lt hmem
    omega

/-- An instruction keeps the invariant in every running state that has not halted. -/
theorem exec (h : s.Inv) (hr : s.runState = .running) (hh : s.halted = false) {i : Instr}
    (hpc : s.pc ≤ s.code.length ∨ i.pushForm = none) (ht : exec i s = .next t) : t.Inv := by
  cases exec_effect ht with
  | writes hp hw => exact (h.withPc (h.pcAfter_le hp hpc)).dataWrites hw
  | fails hp hw he =>
    have hu := (h.withPc (h.pcAfter_le hp hpc)).dataWrites hw
    obtain ⟨⟩ := hw
    exact hu.takeError hh he
  | stops => exact h.halt hr h.returndataBounded
  | returns hw hlen =>
    have hu := h.dataWrites hw
    obtain ⟨⟩ := hw
    exact hu.halt hr hlen

theorem idle (h : s.Inv) (ht : s.idle = .next t) : t.Inv := by
  unfold State.idle at ht
  split at ht
  · cases ht
  · next r later _ =>
    split at ht
    · next hlen => cases ht; exact h.start later hlen
    · cases ht

end State.Inv

/-- A byte that is decoded lies below the end of code. -/
theorem pc_lt_of_decodeFor {cfg : Config} {code : List Byte} {pc : Nat}
    (h : decodeFor cfg (code.drop pc) ≠ .error .noByte) : pc < code.length := by
  refine Nat.lt_of_not_le fun hle => h ?_
  rw [List.drop_eq_nil_of_le hle]
  rfl

/-- R122: decode of a byte moves pc past it, still inside the bound. -/
theorem State.Inv.fetched {s : State} (h : s.Inv) (hl : s.limitReached = false)
    (hd : decodeFor s.cfg (s.code.drop s.pc) ≠ .error .noByte) : (s.counted.withPc (s.pc + 1)).Inv := by
  have hlt : s.pc < s.code.length := pc_lt_of_decodeFor hd
  have hpc : s.pc + 1 ≤ s.code.length + 32 := by omega
  exact (h.counted hl).withPc hpc

/-- A running step: the cases of the Runner's iteration, each with the lemma of `State.Inv` for what it writes. -/
theorem step_keeps_inv_running {s t : State} (h : s.Inv) (hr : s.runState = .running) (ht : step s = .next t) :
    t.Inv := by
  rcases step_running_cases hr with ⟨hh, hs⟩ | ⟨hh, _, hs⟩ | ⟨hh, hl, op, hd, hs⟩ | ⟨hh, hl, _, hs⟩ |
    ⟨hh, hl, i, hd, hs⟩ <;> rw [hs] at ht
  · cases ht
    exact h.succeed hr hh
  · cases ht
    exact h.limitError hh _ _
  · cases ht
    exact (h.fetched hl (by simp [hd])).takeError hh rfl
  · exact (h.counted hl).exec hr hh (.inr rfl) ht
  · have hlt : s.pc < s.code.length := pc_lt_of_decodeFor (cfg := s.cfg) (by simp [hd])
    exact (h.fetched hl (by simp [hd])).exec hr hh (.inl hlt) ht

/-- Settles O54: a running step by the cases of the Runner's iteration, a terminal one by the start it takes. -/
theorem stepKeepsInv : Obligations.StepKeepsInv := by
  intro s t h ht
  by_cases hr : s.runState = .running
  · exact step_keeps_inv_running h hr ht
  · rw [step_terminal hr] at ht
    exact h.idle ht

/-- Settles O57. -/
theorem pcFitsPcBits : Obligations.PcFitsPcBits := by
  intro s h
  calc s.pc ≤ s.code.length + 32 := h.pcBounded
    _ ≤ s.cfg.codeMaxLen + 32 := Nat.add_le_add_right h.codeBounded 32
    _ < 2 ^ s.cfg.pcBits := Nat.lt_log2_self

end Sys2Proof.Machine
end

section
/-! ## The result record (spec/10_state.md R38, R50, R51) -/

namespace Sys2Proof.Machine

theorem Memory.activeWords_eq (m : Memory) : m.activeWords = m.words := by
  simp [Memory.activeWords, Memory.len]

theorem ErrorInfo.code_ne_zero (e : ErrorInfo) : e.code ≠ 0 := by
  cases e <;> simp [ErrorInfo.code]

theorem State.reason_eq_zero_iff (s : State) : s.reason = 0 ↔ s.fault = none := by
  cases h : s.fault with
  | none => simp [State.reason, h]
  | some e => simpa [State.reason, h] using e.code_ne_zero

/-- The record that a terminal state presents. -/
def State.record (s : State) : RunResult where
  runState := s.runState.code
  success := decide (s.runState = .haltedSuccess)
  reason := s.reason
  faultInfo := s.fault
  finalPc := s.pc
  returndata := s.returndata
  activeWords := s.mem.activeWords
  steps := s.steps

theorem State.result_running {s : State} (h : s.runState = .running) : s.result = none := by
  simp [State.result, h]

theorem State.result_terminal {s : State} (h : s.runState ≠ .running) : s.result = some s.record := by
  unfold State.result State.record
  cases hr : s.runState with
  | running => exact absurd hr h
  | _ => rfl

/-- Settles O58. -/
theorem resultRecord : Obligations.ResultRecord := by
  refine ⟨⟨rfl, rfl, rfl, rfl⟩, fun s => ⟨State.result_running, fun h => ⟨s.record, State.result_terminal h, ?_⟩⟩⟩
  have hfault : ∀ e, s.fault = some e → s.reason = e.code := fun e he => by simp [State.reason, he]
  exact ⟨decide_eq_true_iff, rfl, rfl, rfl, s.reason_eq_zero_iff.2, hfault, rfl, rfl, s.mem.activeWords_eq, rfl⟩

/-- R39, R51: in a good terminal state there is no error exactly when the run succeeded. -/
theorem State.Inv.fault_eq_none_iff {s : State} (h : s.Inv) (hr : s.runState ≠ .running) :
    s.fault = none ↔ s.runState = .haltedSuccess := by
  refine ⟨fun hnone => ?_, fun hs => h.noFaultUnlessEnded (.inr hs)⟩
  cases hs : s.runState with
  | running => exact absurd hs hr
  | haltedSuccess => rfl
  | haltedFailure =>
    obtain ⟨e, he, _⟩ := h.failureHasFault hs
    cases hnone.symm.trans he
  | stepLimitExceeded =>
    obtain ⟨limit, n, he⟩ := h.limitHasFault hs
    cases hnone.symm.trans he

/-- R34: a terminal state that did not succeed never halted, so RETURN has written nothing. -/
theorem State.Inv.returndata_of_failed {s : State} (h : s.Inv) (hr : s.runState ≠ .running)
    (hs : s.runState ≠ .haltedSuccess) : s.returndata = [] := by
  refine h.returndataWhenHalted (Bool.eq_false_iff.2 fun hh => ?_)
  exact (h.haltedNotFailed hh).elim hr hs

/-- Settles O59. -/
theorem failedRunReturnsNoData : Obligations.FailedRunReturnsNoData := by
  intro s r h hres
  by_cases hr : s.runState = .running
  · rw [State.result_running hr] at hres
    cases hres
  · rw [State.result_terminal hr] at hres
    cases hres
    refine ⟨?_, fun hfail => h.returndata_of_failed hr (of_decide_eq_false hfail)⟩
    calc s.record.success = true ↔ s.runState = .haltedSuccess := decide_eq_true_iff
      _ ↔ s.fault = none := (h.fault_eq_none_iff hr).symm
      _ ↔ s.reason = 0 := s.reason_eq_zero_iff.symm

end Sys2Proof.Machine
end

section
/-! ## The primitives of the Byte Memory (spec/20_memory.md R60 to R72)

Each primitive has one equation per outcome of its checks. What it writes is a run of bytes into grown memory
(`Memory.byteAt_writeBytes_grow`): one byte for `store`, the 32 of a Word for `storeWord`, a range for CODECOPY. -/

namespace Sys2Proof.Machine

/-! ### Checks and growth -/

theorem checkMem_of_invalid {o : Int} (h : o < 0 ∨ o > 2 ^ 256 - 1) :
    checkMem o = .error (.invalidMemoryAccess o none) :=
  if_pos h

theorem checkMem_of_valid {o : Int} (h0 : 0 ≤ o) (h1 : o ≤ 2 ^ 256 - 1) : checkMem o = .ok () :=
  if_neg (by omega)

theorem Memory.grow_of_exceeds {m : Memory} {limit o w : Nat}
    (h : 32 * max m.words ((o + w + 31) / 32) > limit) :
    m.grow limit o w = .error (.invalidMemoryAccess o none) := by
  rw [Nat.mul_comm] at h
  exact if_pos h

theorem Memory.grow_of_fits {m : Memory} {limit o w : Nat}
    (h : 32 * max m.words ((o + w + 31) / 32) ≤ limit) :
    m.grow limit o w = .ok { m with words := max m.words ((o + w + 31) / 32) } := by
  rw [Nat.mul_comm] at h
  exact if_neg (Nat.not_lt.2 h)

theorem Memory.grow_words {m g : Memory} {limit o w : Nat} (hg : m.grow limit o w = .ok g) :
    g.words = max m.words ((o + w + 31) / 32) := by
  rcases m.grow_cases limit o w with ⟨_, h⟩ | ⟨_, h⟩ <;> rw [h] at hg <;> cases hg
  rfl

/-- R66: growth and the write of `bs` at `o`, read back address by address. -/
theorem Memory.byteAt_writeBytes_grow {m g : Memory} {limit o : Nat} {bs : List Byte} (h : m.wf = true)
    (hg : m.grow limit o bs.length = .ok g) (x : Nat) :
    (g.writeBytes o bs).byteAt x =
      if o ≤ x ∧ x < o + bs.length then bs.getD (x - o) unlistedByte else m.byteAt x := by
  obtain ⟨hwf, _, hcovers, _, hcells⟩ := Memory.grow_wf h hg
  rw [Memory.byteAt_writeBytes bs g o x hwf hcovers, g.byteAt_eq_lookup x hwf, hcells, m.byteAt_eq_lookup x h]

/-- R66: no byte outside the write changes. -/
theorem Memory.byteAt_writeBytes_grow_outside {m g : Memory} {limit o : Nat} {bs : List Byte} (h : m.wf = true)
    (hg : m.grow limit o bs.length = .ok g) {x : Nat} (hx : x < o ∨ o + bs.length ≤ x) :
    (g.writeBytes o bs).byteAt x = m.byteAt x := by
  rw [Memory.byteAt_writeBytes_grow h hg, if_neg (by omega)]

theorem Memory.words_le_of_grow {m g : Memory} {limit o w : Nat} (hg : m.grow limit o w = .ok g) :
    m.words ≤ g.words := by
  rw [Memory.grow_words hg]
  exact Nat.le_max_left _ _

/-! ### Reading -/

theorem Memory.load_of_invalid {m : Memory} {o : Int} (h : o < 0 ∨ o > 2 ^ 256 - 1) :
    m.load o = .error (.invalidMemoryAccess o none) := by
  rw [Memory.load, checkMem_of_invalid h]

theorem Memory.load_of_valid {m : Memory} {o : Int} (h0 : 0 ≤ o) (h1 : o ≤ 2 ^ 256 - 1) :
    m.load o = .ok (m.byteAt o.toNat) := by
  rw [Memory.load, checkMem_of_valid h0 h1]

theorem Memory.byteAt_of_len_le {m : Memory} {a : Nat} (h : m.len ≤ a) : m.byteAt a = 0 :=
  if_neg (Nat.not_lt.2 h)

/-- Settles O14. -/
theorem loadPrimitive : Obligations.LoadPrimitive := by
  refine fun m o => ⟨fun h => ⟨checkMem_of_invalid h, Memory.load_of_invalid h⟩,
    fun h0 h1 => ⟨checkMem_of_valid h0 h1, Memory.load_of_valid h0 h1⟩, fun h0 h1 hlen => ?_⟩
  rw [Memory.load_of_valid h0 h1, Memory.byteAt_of_len_le (by omega)]

theorem Memory.loadEach_of_fits (m : Memory) {n : Nat} {o : Int} (h0 : 0 ≤ o) (h : o + n ≤ 2 ^ 256) :
    m.loadEach n o = .ok ((List.range n).map fun i => m.byteAt (o.toNat + i)) := by
  induction n generalizing o with
  | zero => rfl
  | succ n ih =>
    have hnext : (o + 1).toNat = o.toNat + 1 := by omega
    rw [Memory.loadEach, Memory.load_of_valid h0 (by omega), ih (by omega) (by omega), List.range_succ_eq_map]
    simp [hnext, Nat.add_assoc, Nat.add_comm 1]

/-- R64: a loop that runs past the largest offset raises at `2^256`, the first offset that fails. -/
theorem Memory.loadEach_of_exceeds (m : Memory) {n : Nat} {o : Int} (h0 : 0 ≤ o) (h1 : o ≤ 2 ^ 256)
    (h : o + n > 2 ^ 256) : m.loadEach n o = .error (.invalidMemoryAccess (2 ^ 256) none) := by
  induction n generalizing o with
  | zero => omega
  | succ n ih =>
    rw [Memory.loadEach]
    by_cases ho : o = 2 ^ 256
    · rw [Memory.load_of_invalid (by omega), ho]
    · rw [Memory.load_of_valid h0 (by omega), ih (by omega) (by omega) (by omega)]

theorem Memory.loadRange_of_valid (m : Memory) {o n : Int} (ho : 0 ≤ o) (ho' : o ≤ 2 ^ 256 - 1) (hn : 0 ≤ n)
    (hn' : n ≤ 2 ^ 256 - 1) : m.loadRange o n = m.loadEach n.toNat o := by
  rw [Memory.loadRange, checkMem_of_valid ho ho', checkMem_of_valid hn hn']

theorem Memory.loadRange_wordBytes (m : Memory) {o : Int} (h0 : 0 ≤ o) (h1 : o ≤ 2 ^ 256 - 1) :
    m.loadRange o wordBytes = m.loadEach wordBytes o :=
  m.loadRange_of_valid h0 h1 (by decide) (by decide)

/-- Settles O15: the two checks, then the loop with its two outcomes. -/
theorem loadRangePrimitive : Obligations.LoadRangePrimitive := by
  refine fun m o n => ⟨fun h => ?_, fun h0 h1 h => ?_, fun h0 h1 hn hn' h => ?_, fun h0 h1 hn hn' h => ?_⟩
  · rw [Memory.loadRange, checkMem_of_invalid h]
  · rw [Memory.loadRange, checkMem_of_valid h0 h1, checkMem_of_invalid h]
  · rw [m.loadRange_of_valid h0 h1 (by omega) hn', m.loadEach_of_exceeds h0 (by omega) (by omega)]
  · rw [m.loadRange_of_valid h0 h1 hn hn', m.loadEach_of_fits h0 (by omega)]

/-! ### Writing -/

theorem Memory.store_of_valid (m : Memory) (limit : Nat) {o b : Int} (h0 : 0 ≤ o) (h1 : o ≤ 2 ^ 256 - 1)
    (hb0 : 0 ≤ b) (hb1 : b ≤ 255) :
    m.store limit o b = (m.grow limit o.toNat 1).map (·.writeBytes o.toNat [BitVec.ofInt 8 b]) := by
  rw [Memory.store, checkMem_of_valid h0 h1]
  dsimp only
  rw [if_neg (by omega)]
  cases m.grow limit o.toNat 1 <;> rfl

theorem Memory.storeWord_of_valid (m : Memory) (limit : Nat) {o : Int} (v : Word) (h0 : 0 ≤ o)
    (h1 : o ≤ 2 ^ 256 - 1) :
    m.storeWord limit o v =
      (m.grow limit o.toNat wordBytes).map (·.writeBytes o.toNat (beBytes wordBytes v.toNat)) := by
  rw [Memory.storeWord, checkMem_of_valid h0 h1]
  cases m.grow limit o.toNat wordBytes <;> rfl

/-- R66: what `store` has done when it raises nothing. -/
theorem Memory.store_ok {m g : Memory} {limit : Nat} {o b : Int} (hs : m.store limit o b = .ok g) :
    ∃ g', m.grow limit o.toNat 1 = .ok g' ∧ g = g'.writeBytes o.toNat [BitVec.ofInt 8 b] := by
  rcases m.store_cases limit o b with ⟨e, he⟩ | ⟨g', hg, h⟩
  · cases he.symm.trans hs
  · cases h.symm.trans hs
    exact ⟨g', hg, rfl⟩

theorem Memory.byteAt_store_ne {m g : Memory} {limit a : Nat} {o b : Int} (h : m.wf = true)
    (hs : m.store limit o b = .ok g) (ha : a ≠ o.toNat) : g.byteAt a = m.byteAt a := by
  obtain ⟨g', hg, rfl⟩ := Memory.store_ok hs
  exact Memory.byteAt_writeBytes_grow_outside (bs := [BitVec.ofInt 8 b]) h hg
    (by rw [List.length_singleton]; omega)

theorem Memory.store_words {m g : Memory} {limit : Nat} {o b : Int} (hs : m.store limit o b = .ok g) :
    g.words = max m.words ((o.toNat + 1 + 31) / 32) := by
  obtain ⟨g', hg, rfl⟩ := Memory.store_ok hs
  rw [Memory.writeBytes_words, Memory.grow_words hg]

/-- Settles O16: the equation of each check, and the write of one byte into grown memory read back. -/
theorem storePrimitive : Obligations.StorePrimitive := by
  intro m limit o b hwf
  refine ⟨fun h => ?_, fun h0 h1 h => ?_, fun h0 h1 hb0 hb1 h => ?_, fun h0 h1 hb0 hb1 h => ?_⟩
  · rw [Memory.store, checkMem_of_invalid h]
  · rw [Memory.store, checkMem_of_valid h0 h1]
    exact if_pos h
  · rw [m.store_of_valid limit h0 h1 hb0 hb1, Memory.grow_of_exceeds h, Int.toNat_of_nonneg h0]
    rfl
  · have hg := Memory.grow_of_fits h
    have hs := m.store_of_valid limit h0 h1 hb0 hb1
    rw [hg] at hs
    refine ⟨_, hs, Memory.store_words hs, ?_, fun a ha => Memory.byteAt_store_ne hwf hs ha⟩
    have hbyte : ((BitVec.ofInt 8 b).toNat : Int) = b := by
      rw [BitVec.toNat_ofInt]
      omega
    rw [Memory.byteAt_writeBytes_grow (bs := [BitVec.ofInt 8 b]) hwf hg]
    simpa using hbyte

/-- R13: byte `i` of `be_bytes_n(v)` weighs `256 ^ (n - 1 - i)`. -/
theorem getD_beBytes {n i : Nat} (v : Nat) (h : i < n) :
    (beBytes n v).getD i unlistedByte = BitVec.ofNat 8 (v / 256 ^ (n - 1 - i)) := by
  induction n generalizing i with
  | zero => omega
  | succ n ih =>
    cases i with
    | zero => rfl
    | succ i =>
      rw [beBytes_succ, List.getD_cons_succ, ih (by omega), show n + 1 - 1 - (i + 1) = n - 1 - i by omega]

/-- R72: byte `i` of a Word, big-endian, is its bits `255 - 8i` to `248 - 8i`. -/
theorem getD_beBytes_word (v : Word) {i : Nat} (h : i < 32) :
    (beBytes wordBytes v.toNat).getD i unlistedByte = v.extractLsb' (248 - 8 * i) 8 := by
  have hweight : 256 ^ (wordBytes - 1 - i) = 2 ^ (248 - 8 * i) := by
    rw [show 248 - 8 * i = 8 * (wordBytes - 1 - i) by simp only [wordBytes]; omega, pow_mul]
    rfl
  rw [getD_beBytes v.toNat h, hweight, ← Nat.shiftRight_eq_div_pow]
  rfl

theorem beBytes_word_length (v : Word) : (beBytes wordBytes v.toNat).length = 32 :=
  beBytes_length _ _

/-- Settles O17. -/
theorem storeWordIsBigEndian : Obligations.StoreWordIsBigEndian := by
  intro m limit o v hwf
  refine ⟨fun h => ?_, fun h0 h1 h => ?_, fun h0 h1 h => ?_⟩
  · rw [Memory.storeWord, checkMem_of_invalid h]
  · rw [m.storeWord_of_valid limit v h0 h1, wordBytes, Memory.grow_of_exceeds h, Int.toNat_of_nonneg h0]
    rfl
  · have hg := Memory.grow_of_fits h
    have hread := Memory.byteAt_writeBytes_grow (bs := beBytes wordBytes v.toNat) hwf
      (by rw [beBytes_word_length]; exact hg)
    rw [beBytes_word_length] at hread
    have hs := m.storeWord_of_valid limit v h0 h1
    rw [wordBytes, hg] at hs
    refine ⟨_, hs, Memory.writeBytes_words _ _ _, fun i hi => ?_, fun a ha => ?_⟩
    · rw [hread, if_pos (by omega), Nat.add_sub_cancel_left, getD_beBytes_word v hi]
    · rw [hread, if_neg (by omega)]

/-- R66, R72: what `storeWord` has done when it raises nothing. -/
theorem Memory.storeWord_ok {m g : Memory} {limit : Nat} {o : Int} {v : Word}
    (hs : m.storeWord limit o v = .ok g) :
    0 ≤ o ∧ ∃ g', m.grow limit o.toNat wordBytes = .ok g' ∧
      g = g'.writeBytes o.toNat (beBytes wordBytes v.toNat) := by
  rcases checkMem_cases o with ⟨_, hc⟩ | ⟨ho, _⟩
  · rw [Memory.storeWord, hc] at hs
    cases hs
  · rw [m.storeWord_of_valid limit v (by omega) (by omega)] at hs
    cases hg : m.grow limit o.toNat wordBytes with
    | error e => rw [hg] at hs; cases hs
    | ok g' => rw [hg] at hs; cases hs; exact ⟨by omega, g', rfl, rfl⟩

/-- R66: the bytes written at `o` are the bytes read from `o` on. -/
theorem Memory.range_byteAt_writeBytes_grow {m g : Memory} {limit o : Nat} {bs : List Byte} (h : m.wf = true)
    (hg : m.grow limit o bs.length = .ok g) :
    ((List.range bs.length).map fun i => (g.writeBytes o bs).byteAt (o + i)) = bs := by
  refine List.ext_getElem (by simp) fun i _ hi => ?_
  rw [List.getElem_map, List.getElem_range, Memory.byteAt_writeBytes_grow h hg, if_pos (by omega),
    Nat.add_sub_cancel_left, List.getD_eq_getElem _ _ hi]

/-- R13: a Word is read back from its 32 bytes. -/
theorem ofNat_be_beBytes_word (v : Word) : BitVec.ofNat 256 (be (beBytes wordBytes v.toNat)) = v := by
  have hv : v.toNat < 256 ^ wordBytes := v.isLt
  rw [be_beBytes, Nat.mod_eq_of_lt hv, BitVec.ofNat_toNat, BitVec.setWidth_eq]

/-- Settles O18: the range loaded is the 32 bytes written. -/
theorem loadWordAfterStoreWord : Obligations.LoadWordAfterStoreWord := by
  refine ⟨fun m g limit o v hwf ho hs => ?_, fun m o h1 h => ?_⟩
  · obtain ⟨h0, g', hg, rfl⟩ := Memory.storeWord_ok hs
    have hback := Memory.range_byteAt_writeBytes_grow (bs := beBytes wordBytes v.toNat) hwf
      (by rw [beBytes_length]; exact hg)
    rw [beBytes_length] at hback
    have hfits : o + wordBytes ≤ 2 ^ 256 := by simp only [wordBytes]; omega
    rw [Memory.loadWord, Memory.loadRange_wordBytes _ h0 (by omega), Memory.loadEach_of_fits _ h0 hfits, hback]
    exact congrArg Except.ok (ofNat_be_beBytes_word v)
  · have hexceeds : o + wordBytes > 2 ^ 256 := by simp only [wordBytes]; omega
    rw [Memory.loadWord, m.loadRange_wordBytes (by omega) h1, m.loadEach_of_exceeds (by omega) (by omega) hexceeds]

/-! ### The active words -/

/-- R66: the words of memory after one store. -/
theorem StoreOp.run_words {limit : Nat} {m m' : Memory} {op : StoreOp} (h : op.run limit m = .ok m') :
    m'.words = max m.words ((op.lastByte + 1 + 31) / 32) := by
  cases op with
  | byte o b =>
    exact Memory.store_words h
  | word o v =>
    obtain ⟨_, g, hg, rfl⟩ := Memory.storeWord_ok h
    rw [Memory.writeBytes_words, Memory.grow_words hg]
    rfl

/-- R68: the words after a sequence of stores are the least that cover the memory before and every byte written. -/
theorem runStores_words_le_iff {limit : Nat} {ops : List StoreOp} {m m' : Memory}
    (h : runStores limit m ops = .ok m') (n : Nat) :
    m'.words ≤ n ↔ m.words ≤ n ∧ ∀ op ∈ ops, (op.lastByte + 1 + 31) / 32 ≤ n := by
  induction ops generalizing m with
  | nil => cases h; simp
  | cons op ops ih =>
    rw [runStores] at h
    cases hop : op.run limit m with
    | error e => rw [hop] at h; cases h
    | ok m₁ =>
      rw [hop] at h
      rw [ih h, StoreOp.run_words hop, max_le_iff, List.forall_mem_cons, and_assoc]

/-- Settles O19: the least cover, when one store reaches furthest. -/
theorem activeWordsFollowStores : Obligations.ActiveWordsFollowStores := by
  refine ⟨fun limit ops m h => ?_, fun limit ops m m' h => ?_⟩ <;>
    simp only [Memory.activeWords_eq]
  · refine ⟨?_, fun op hop hlast => ?_⟩
    · rintro rfl
      cases h
      rfl
    · obtain ⟨_, hcovers⟩ := (runStores_words_le_iff h m.words).1 le_rfl
      refine le_antisymm ((runStores_words_le_iff h _).2 ⟨Nat.zero_le _, fun op' hop' => ?_⟩) (hcovers op hop)
      have := hlast op' hop'
      omega
  · exact ((runStores_words_le_iff h m'.words).1 le_rfl).1

end Sys2Proof.Machine
end

section
/-! ## What an instruction does to memory (spec/20_memory.md R60, R62, R66)

Every operation but `storeByte` and `copyCode` leaves memory as it was, whether it answers or raises
(`Res.state`); so an instruction changes memory by MSTORE8's store or CODECOPY's write alone (`MemEffect`). -/

namespace Sys2Proof.Machine

/-- The state that an operation leaves, whether it answers or raises. -/
def Res.state {α : Type} : Res α → State
  | .ok _ t => t
  | .raised _ t => t

@[simp] theorem Res.state_ok {α : Type} (v : α) (t : State) : (Res.ok v t).state = t := rfl

@[simp] theorem Res.state_raised {α : Type} (e : ErrorInfo) (t : State) :
    (Res.raised e t : Res α).state = t := rfl

/-- A sequence leaves memory as its first part does when its second part never writes it. -/
theorem Res.andThen_state_mem {α β : Type} {r : Res α} {f : α → State → Res β}
    (hf : ∀ v t, (f v t).state.mem = t.mem) : (r.andThen f).state.mem = r.state.mem := by
  cases r with
  | ok v t => exact hf v t
  | raised e t => rfl

theorem Res.mem_of_outcome {r : Res Unit} {t : State} (ht : r.outcome = .next t) : t.mem = r.state.mem := by
  cases r <;> cases ht <;> rfl

/-! ### Operations that write no memory -/

section
variable (s : State)

@[simp] theorem pop_state_mem : (pop s).state.mem = s.mem := by
  rcases pop_cases s with ⟨_, h⟩ | ⟨_, _, _, h⟩ <;> simp [h]

@[simp] theorem push_state_mem (v : Int) : (push v s).state.mem = s.mem := by
  rcases push_cases v s with ⟨_, h⟩ | ⟨_, _, h⟩ | ⟨_, _, h⟩ <;> simp [h]

@[simp] theorem pushWord_state_mem (v : Word) : (pushWord v s).state.mem = s.mem :=
  push_state_mem s v.toNat

@[simp] theorem peek_state_mem (i : Nat) : (peek i s).state.mem = s.mem := by
  rcases peek_cases i s with ⟨_, h⟩ | ⟨_, _, h⟩ <;> simp [h]

@[simp] theorem swap_state_mem (i : Nat) : (swap i s).state.mem = s.mem := by
  rcases swap_cases i s with ⟨_, h⟩ | ⟨_, _, _, _, h⟩ <;> simp [h]

@[simp] theorem jumpTo_state_mem (w : Word) : (jumpTo w s).state.mem = s.mem := by
  rcases jumpTo_cases w s with ⟨_, h⟩ | ⟨_, h⟩ <;> simp [h]

@[simp] theorem captureRange_state_mem (o n : Word) : (captureRange o n s).state.mem = s.mem := by
  rcases captureRange_cases o n s with ⟨_, h⟩ | ⟨_, h⟩ <;> rw [h]
  · rfl
  · cases s.mem.loadRange o.toNat n.toNat <;> rfl

theorem dup_state_mem (n : Nat) : (dup n s).state.mem = s.mem := by
  simp [dup, Res.andThen_state_mem]

theorem pushImmediate_state_mem (n : Nat) (imm : List Byte) : (pushImmediate n imm s).state.mem = s.mem := by
  simp [pushImmediate, readCode]

theorem binary_state_mem (f : Word → Word → Word) : (binary f s).state.mem = s.mem := by
  simp [binary, Res.andThen_state_mem]

end

/-! ### The effect of an instruction on memory -/

/-- The memory that `i`, executed in `s`, can leave. -/
inductive MemEffect : Instr → State → Memory → Prop
  | unchanged {i : Instr} {s : State} : MemEffect i s s.mem
  /-- 46_memory_ops.md R230. -/
  | byte {s : State} {o v : Word} {rest : List Word} {m : Memory} : s.stack = o :: v :: rest →
      s.mem.store s.cfg.memLimitBytes o.toNat (v.toNat % 256 : Nat) = .ok m → MemEffect .mstore8 s m
  /-- 49_optional_extensions.md R282. -/
  | code {s : State} {d o n : Word} {rest : List Word} {g : Memory} : s.stack = d :: o :: n :: rest →
      s.mem.grow s.cfg.memLimitBytes d.toNat n.toNat = .ok g →
      MemEffect .codecopy s (g.writeBytes d.toNat (codeRange s.code o.toNat n.toNat))

section
variable {i : Instr} {s t : State} {r : Res Unit}

theorem memEffect_of_state_mem (hr : r.state.mem = s.mem) (ht : r.outcome = .next t) : MemEffect i s t.mem := by
  rw [Res.mem_of_outcome ht, hr]
  exact .unchanged

theorem execBinary_memEffect {f : Word → Word → Word} (ht : (binary f s).outcome = .next t) :
    MemEffect i s t.mem :=
  memEffect_of_state_mem (binary_state_mem s f) ht

theorem execIszero_memEffect (ht : execIszero s = .next t) : MemEffect .iszero s t.mem :=
  memEffect_of_state_mem (by simp [Res.andThen_state_mem]) ht

theorem execJump_memEffect (ht : execJump s = .next t) : MemEffect .jump s t.mem :=
  memEffect_of_state_mem (by simp [Res.andThen_state_mem]) ht

theorem execJumpi_memEffect (ht : execJumpi s = .next t) : MemEffect .jumpi s t.mem := by
  refine memEffect_of_state_mem ?_ ht
  have hbranch (w c : Word) (u : State) : (if c ≠ 0 then jumpTo w u else .ok () u).state.mem = u.mem := by
    split <;> simp
  simp only [Res.andThen_state_mem, hbranch, pop_state_mem, implies_true]

theorem execReturn_memEffect (ht : execReturn s = .next t) : MemEffect .ret s t.mem := by
  refine memEffect_of_state_mem ?_ ht
  have hcapture (o n : Word) (u : State) : ((captureRange o n u).andThen fun r u =>
      .ok () (u.withReturndata r).halt).state.mem = u.mem := by
    exact (Res.andThen_state_mem fun _ _ => rfl).trans (captureRange_state_mem u o n)
  simp only [Res.andThen_state_mem, hcapture, pop_state_mem, implies_true]

theorem execMstore8_memEffect (ht : execMstore8 s = .next t) : MemEffect .mstore8 s t.mem := by
  rw [Res.mem_of_outcome ht]
  rcases pop_cases s with ⟨_, hp⟩ | ⟨o, rest, hstack, hp⟩ <;> rw [hp]
  · exact .unchanged
  rw [Res.andThen_ok]
  rcases pop_cases (s.withStack rest) with ⟨_, hp⟩ | ⟨v, rest, rfl, hp⟩ <;> rw [hp]
  · exact .unchanged
  rw [Res.andThen_ok]
  rcases storeByte_cases o.toNat (v.toNat % 256 : Nat) (((s.withStack (v :: rest)).withStack rest)) with
    ⟨_, _, hs⟩ | ⟨m, hm, hs⟩ <;> rw [hs]
  · exact .unchanged
  · exact .byte hstack hm

theorem execCodecopy_memEffect (ht : execCodecopy s = .next t) : MemEffect .codecopy s t.mem := by
  rw [Res.mem_of_outcome ht]
  rcases pop_cases s with ⟨_, hp⟩ | ⟨d, rest, hstack, hp⟩ <;> rw [hp]
  · exact .unchanged
  rw [Res.andThen_ok]
  rcases pop_cases (s.withStack rest) with ⟨_, hp⟩ | ⟨o, rest, rfl, hp⟩ <;> rw [hp]
  · exact .unchanged
  rw [Res.andThen_ok]
  rcases pop_cases ((s.withStack (o :: rest)).withStack rest) with ⟨_, hp⟩ | ⟨n, rest, rfl, hp⟩ <;> rw [hp]
  · exact .unchanged
  rw [Res.andThen_ok]
  rcases copyCode_cases d.toNat o.toNat n.toNat
      (((s.withStack (o :: n :: rest)).withStack (n :: rest)).withStack rest) with
    ⟨_, hc⟩ | ⟨_, _, hc⟩ | ⟨_, g, hg, hc⟩ <;> rw [hc]
  · exact .unchanged
  · exact .unchanged
  · exact .code hstack hg

end

/-- `exec` inverted, for all instructions: everything an instruction can do to memory. -/
theorem exec_memEffect {i : Instr} {s t : State} (ht : exec i s = .next t) : MemEffect i s t.mem := by
  rcases Instr_families i with hi | ⟨p, hp, imm, rfl⟩ | ⟨p, hp, rfl⟩ | ⟨p, hp, rfl⟩
  · simp only [List.mem_cons, List.not_mem_nil, or_false] at hi
    rcases hi with rfl | rfl | rfl | rfl | rfl | rfl | rfl | rfl | rfl | rfl | rfl | rfl | rfl | rfl | rfl | rfl | rfl
    · exact memEffect_of_state_mem (r := .ok () s.halt) rfl ht
    · exact execBinary_memEffect ht
    · exact execBinary_memEffect ht
    · exact execBinary_memEffect ht
    · exact execBinary_memEffect ht
    · exact execBinary_memEffect ht
    · exact execBinary_memEffect ht
    · exact execBinary_memEffect ht
    · exact execBinary_memEffect ht
    · exact execBinary_memEffect ht
    · exact execIszero_memEffect ht
    · exact execCodecopy_memEffect ht
    · exact execMstore8_memEffect ht
    · exact execJump_memEffect ht
    · exact execJumpi_memEffect ht
    · exact memEffect_of_state_mem (r := .ok () s) rfl ht
    · exact execReturn_memEffect ht
  · rw [exec_pushFamily p hp] at ht
    exact memEffect_of_state_mem (pushImmediate_state_mem s p.1 imm) ht
  · obtain ⟨_, _, hexec⟩ := exec_dupFamily p hp
    rw [hexec] at ht
    exact memEffect_of_state_mem (dup_state_mem s p.1) ht
  · obtain ⟨_, _, hexec⟩ := exec_swapFamily p hp
    rw [hexec] at ht
    exact memEffect_of_state_mem (swap_state_mem s p.1) ht

/-- Settles O37: the three cases of `MemEffect`. -/
theorem memoryFrame : Obligations.MemoryFrame := by
  intro i s t ht
  have hm := exec_memEffect ht
  generalize t.mem = m at hm
  cases hm with
  | unchanged => exact ⟨fun _ _ => rfl, fun _ _ _ _ _ _ _ _ => rfl, fun _ _ _ _ _ _ _ _ _ => rfl, le_rfl⟩
  | byte hstack hs =>
    refine ⟨fun h => absurd rfl h, fun hwf _ o v rest h a ha => ?_, fun _ h => (nomatch h), ?_⟩
    · cases hstack.symm.trans h
      exact Memory.byteAt_store_ne hwf hs ha
    · rw [Memory.store_words hs]
      exact Nat.le_max_left _ _
  | code hstack hg =>
    refine ⟨fun _ h => absurd rfl h, fun _ h => (nomatch h), fun hwf _ d o n rest h a ha => ?_, ?_⟩
    · cases hstack.symm.trans h
      exact Memory.byteAt_writeBytes_grow_outside hwf (by rw [codeRange_length]; exact hg)
        (by rw [codeRange_length]; exact ha)
    · rw [Memory.writeBytes_words]
      exact Memory.words_le_of_grow hg

end Sys2Proof.Machine
end

section
/-! ## The encoder against the decoder (spec/30_encoding.md R91 to R97)

An instruction has format OP, one opcode byte, or is a PUSHn, its opcode byte `0x5F + n` and its immediate. Each
format has its equations once; the round trips and the length of R92 follow from them. -/

namespace Sys2Proof

open Sys2Proof.Machine

/-- R91: the two formats. -/
theorem format_cases (i : Instr) : i.pushForm = none ∨ ∃ p ∈ Instr.pushFamily, ∃ imm, i = p.2 imm := by
  rcases Instr_families i with hi | hpush | ⟨p, hp, rfl⟩ | ⟨p, hp, rfl⟩
  · have named : ∀ j ∈ [Instr.stop, .add, .mul, .sub, .div, .lt, .gt, .slt, .sgt, .eq, .iszero, .codecopy, .mstore8,
      .jump, .jumpi, .jumpdest, .ret], j.pushForm = none := by decide
    exact .inl (named i hi)
  · exact .inr hpush
  · exact .inl (dupFamily_form p hp)
  · exact .inl (swapFamily_form p hp)

/-- R91, R95: format OP. -/
theorem encode_op {i : Instr} (h : i.pushForm = none) :
    ∃ op, encode i = [op] ∧ opcodeLength op = 1 ∧ ∀ rest, decode (op :: rest) = .ok i := by
  cases i <;> simp only [Instr.pushForm, reduceCtorEq] at h <;> exact ⟨_, rfl, rfl, fun _ => rfl⟩

/-- R95: the opcode byte of PUSHn. -/
def pushOpcode (n : Nat) : Byte := BitVec.ofNat 8 (0x5F + n)

theorem pushOpcode_toNat {n : Nat} (h : n ≤ 32) : (pushOpcode n).toNat = 0x5F + n := by
  rw [pushOpcode, BitVec.toNat_ofNat]
  omega

/-- R92: a PUSHn has `1 + n` bytes. -/
theorem opcodeLength_pushOpcode {n : Nat} (h₁ : 1 ≤ n) (h₂ : n ≤ 32) : opcodeLength (pushOpcode n) = 1 + n := by
  rw [opcodeLength, pushOpcode_toNat h₂, if_pos (by omega)]
  omega

/-- R91: the bytes of a PUSHn. -/
theorem encode_push : ∀ p ∈ Instr.pushFamily, ∀ imm, encode (p.2 imm) = pushOpcode p.1 :: imm :=
  pushFamily_forall (by and_intros <;> exact fun _ => rfl)

/-- R93, 42_push.md R161: a PUSHn takes the `n` bytes after its opcode byte, or those that are present. -/
theorem decode_push : ∀ p ∈ Instr.pushFamily, ∀ bytes,
    decode (pushOpcode p.1 :: bytes) = .ok (p.2 (bytes.take p.1)) :=
  pushFamily_forall (by and_intros <;> exact fun _ => rfl)

/-! ### The round trips -/

/-- Bytes may follow an instruction that is complete, and no others. -/
theorem decode_encode_append {i : Instr} {rest : List Byte} (hw : i.wellFormed = true)
    (hrest : rest = [] ∨ i.complete = true) : decode (encode i ++ rest) = .ok i := by
  rcases format_cases i with hop | ⟨p, hp, imm, rfl⟩
  · obtain ⟨op, henc, _, hdec⟩ := encode_op hop
    rw [henc]
    exact hdec rest
  · obtain ⟨_, _, hform⟩ := pushFamily_form p hp
    have himm : (imm ++ rest).take p.1 = imm := by
      rcases hrest with rfl | hc
      · have hle : imm.length ≤ p.1 := by simpa [Instr.wellFormed, hform] using hw
        rw [List.append_nil, List.take_of_length_le hle]
      · have hlen : imm.length = p.1 := by simpa [Instr.complete, hform] using hc
        rw [← hlen, List.take_left]
    rw [encode_push p hp, List.cons_append, decode_push p hp, himm]

theorem wellFormed_of_complete {i : Instr} (h : i.complete = true) : i.wellFormed = true := by
  cases hf : i.pushForm with
  | none => simp [Instr.wellFormed, hf]
  | some form =>
    have hlen : form.2.length = form.1 := by simpa [Instr.complete, hf] using h
    simp [Instr.wellFormed, hf, hlen]

/-- Settles O1: the two cases of `decode_encode_append`. -/
theorem decodeInvertsEncode : Obligations.DecodeInvertsEncode := by
  refine ⟨fun i rest hc => decode_encode_append (wellFormed_of_complete hc) (.inr hc), fun i hw => ?_⟩
  simpa using decode_encode_append hw (.inl rfl)

/-- Settles O2: `decode_ok_cases` gives the bytes read; bytes are left after a PUSHn only when all `n` were there. -/
theorem encodeInvertsDecode : Obligations.EncodeInvertsDecode := by
  intro bytes i h
  cases bytes with
  | nil => cases h
  | cons op tail =>
    obtain ⟨henc, hw⟩ := decode_ok_cases h
    refine ⟨hw, ?_⟩
    cases hf : i.pushForm with
    | none =>
      rw [hf] at henc
      exact ⟨tail, by rw [henc]; rfl, fun _ => by simp [Instr.complete, hf]⟩
    | some form =>
      obtain ⟨n, imm⟩ := form
      rw [hf] at henc
      refine ⟨tail.drop n, by rw [henc, List.cons_append, List.take_append_drop], fun hleft => ?_⟩
      have hlt : n < tail.length := by simpa using hleft
      have himm : imm = tail.take n := decode_ok_push h hf
      simp [Instr.complete, hf, himm, hlt.le]

/-- Settles O3. -/
theorem specBytesDecode : Obligations.SpecBytesDecode :=
  ⟨rfl, rfl, rfl, rfl, rfl, rfl, rfl, rfl, rfl, rfl, rfl, rfl, rfl, rfl⟩

/-! ### The length -/

/-- R92: format OP. -/
theorem opcodeLength_of_op {i : Instr} {op : Byte} {imm : List Byte} (henc : encode i = op :: imm)
    (hf : i.pushForm = none) : opcodeLength op = 1 := by
  obtain ⟨op', henc', hlen, _⟩ := encode_op hf
  cases henc.symm.trans henc'
  exact hlen

/-- R92, R95: PUSHn. -/
theorem opcode_of_push {i : Instr} {op : Byte} {imm bs : List Byte} {n : Nat} (henc : encode i = op :: imm)
    (hf : i.pushForm = some (n, bs)) : 1 ≤ n ∧ n ≤ 32 ∧ op = pushOpcode n ∧ imm = bs := by
  rcases format_cases i with hop | ⟨p, hp, imm', rfl⟩
  · cases hop.symm.trans hf
  · obtain ⟨h₁, h₂, hform⟩ := pushFamily_form p hp
    cases (hform imm').symm.trans hf
    cases henc.symm.trans (encode_push p hp _)
    exact ⟨h₁, h₂, rfl, rfl⟩

/-- R97: an unassigned byte stands alone. -/
theorem opcodeLength_of_unassigned {cfg : Config} {op : Byte} (h : Unassigned cfg op) : opcodeLength op = 1 := by
  unfold Unassigned at h
  exact if_neg (by omega)

/-- Settles O4. -/
theorem lengthFromOpcodeByte : Obligations.LengthFromOpcodeByte := by
  refine ⟨fun i op imm henc => ⟨fun n bs hf => ?_, opcodeLength_of_op henc⟩,
    fun _ _ => opcodeLength_of_unassigned⟩
  obtain ⟨h₁, h₂, rfl, _⟩ := opcode_of_push henc hf
  have hbyte := pushOpcode_toNat h₂
  exact ⟨by omega, opcodeLength_pushOpcode h₁ h₂⟩

/-- Settles O8: the bytes of the literal are those of its value (O7), and `decode_push` takes them all. -/
theorem pushLiteralAssembles : Obligations.PushLiteralAssembles := by
  intro p hp v
  obtain ⟨h₁, h₂, _⟩ := pushFamily_form p hp
  refine ⟨fun hv => ?_, fun hv => if_neg (by omega)⟩
  have hlen : (beBytes p.1 v).length = p.1 := beBytes_length p.1 v
  refine ⟨pushOpcode p.1 :: beBytes p.1 v, beBytes p.1 v, if_pos ⟨h₁, h₂, hv⟩, ?_, hlen, ?_⟩
  · rw [decode_push p hp, List.take_of_length_le hlen.le]
  · rw [be_beBytes, Nat.mod_eq_of_lt hv]

/-! ### Unassigned bytes -/

/-- R95, R97: every byte outside the list of R97 is in the opcode map. -/
theorem exists_decode_of_assigned {cfg : Config} {op : Byte} (rest : List Byte) (h : ¬ Unassigned cfg op) :
    ∃ i, decode (op :: rest) = .ok i := by
  unfold Unassigned at h
  have assigned : op.toNat ≤ 0x04 ∨ (0x10 ≤ op.toNat ∧ op.toNat ≤ 0x15) ∨ op.toNat = 0x39 ∨ op.toNat = 0x53 ∨
      (0x56 ≤ op.toNat ∧ op.toNat ≤ 0x57) ∨ op.toNat = 0x5B ∨ (0x60 ≤ op.toNat ∧ op.toNat ≤ 0x9F) ∨
      op.toNat = 0xF3 := by omega
  clear h
  generalize hn : op.toNat = n at assigned
  cases eq_ofNat_of_toNat hn
  clear hn
  rcases assigned with _ | ⟨_, _⟩ | rfl | rfl | ⟨_, _⟩ | rfl | ⟨_, _⟩ | rfl
  · interval_cases n <;> exact ⟨_, rfl⟩
  · interval_cases n <;> exact ⟨_, rfl⟩
  · exact ⟨_, rfl⟩
  · exact ⟨_, rfl⟩
  · interval_cases n <;> exact ⟨_, rfl⟩
  · exact ⟨_, rfl⟩
  · interval_cases n <;> exact ⟨_, rfl⟩
  · exact ⟨_, rfl⟩

/-- R10, R97: the byte of an instruction is unassigned exactly on a build without the instruction. -/
theorem unassigned_iff_not_present {cfg : Config} {i : Instr} {op : Byte} {imm : List Byte}
    (henc : encode i = op :: imm) : Unassigned cfg op ↔ i.present cfg = false := by
  rcases format_cases i with hop | ⟨p, hp, imm', rfl⟩
  · cases i <;> simp only [Instr.pushForm, reduceCtorEq] at hop
    all_goals
      cases henc
      simp [Unassigned, Instr.present]
  · obtain ⟨h₁, h₂, hform⟩ := pushFamily_form p hp
    obtain ⟨_, _, rfl, _⟩ := opcode_of_push henc (hform imm')
    have hbyte := pushOpcode_toNat h₂
    have hpresent : (p.2 imm').present cfg = true := by
      have hne (j : Instr) (hj : j.pushForm = none) : p.2 imm' ≠ j := by
        rintro rfl
        cases hj.symm.trans (hform imm')
      rw [Instr.present, if_neg (hne _ rfl), if_neg (hne _ rfl)]
    rw [hpresent, Unassigned]
    simp only [reduceCtorEq, iff_false]
    omega

/-- R10: what decodes is an instruction of the build or an unknown opcode. -/
theorem decodeFor_of_decode (cfg : Config) {bytes : List Byte} {i : Instr} (hd : decode bytes = .ok i) :
    decodeFor cfg bytes = if i.present cfg then .ok i else .error (.unknownOpcode (bytes.headD 0)) := by
  rw [decodeFor, hd]

/-- Decode with a byte there, inverted: UnknownOpcode for an unassigned byte, else an instruction. -/
theorem decodeFor_cases (cfg : Config) (op : Byte) (rest : List Byte) :
    (Unassigned cfg op ∧ decodeFor cfg (op :: rest) = .error (.unknownOpcode op)) ∨
    (¬ Unassigned cfg op ∧ ∃ i, decodeFor cfg (op :: rest) = .ok i) := by
  have hpresent {i : Instr} (hi : decode (op :: rest) = .ok i) :=
    unassigned_iff_not_present (cfg := cfg) (decode_ok_cases hi).1
  by_cases h : Unassigned cfg op
  · refine .inl ⟨h, ?_⟩
    cases hd : decode (op :: rest) with
    | error e => rw [decodeFor, hd, decode_error_cases hd]
    | ok i => rw [decodeFor_of_decode cfg hd, (hpresent hd).1 h]; rfl
  · obtain ⟨i, hi⟩ := exists_decode_of_assigned rest h
    rw [hpresent hi, Bool.not_eq_false] at h
    exact .inr ⟨mt (hpresent hi).1 (by simp [h]), i, by rw [decodeFor_of_decode cfg hi, if_pos h]⟩

/-- The code from an offset inside it on. -/
theorem drop_of_getElem? {code : List Byte} {p : Nat} {b : Byte} (h : code[p]? = some b) :
    code.drop p = b :: code.drop (p + 1) := by
  obtain ⟨hlt, rfl⟩ := List.getElem?_eq_some_iff.1 h
  exact List.drop_eq_getElem_cons hlt

/-- Settles O5: the two cases of `decodeFor_cases`. -/
theorem unassignedBytesAreUnknownOpcodes : Obligations.UnassignedBytesAreUnknownOpcodes := by
  refine ⟨fun cfg op rest => ?_, fun s op hop hun => ?_⟩
  · rcases decodeFor_cases cfg op rest with ⟨h, hd⟩ | ⟨h, hd⟩
    · simp [h, hd]
    · simp [h, hd]
  · have hd : decodeFor s.cfg (s.code.drop s.pc) = .error (.unknownOpcode op) := by
      rw [drop_of_getElem? hop]
      rcases decodeFor_cases s.cfg op (s.code.drop (s.pc + 1)) with ⟨_, hd⟩ | ⟨h, _⟩
      · exact hd
      · exact absurd hun h
    rcases fetchDecode_cases s with ⟨h, _⟩ | ⟨op', h, hf⟩ | ⟨i, h, _⟩ <;> cases hd.symm.trans h
    exact hf

end Sys2Proof
end

section
/-! ## Instruction starts (spec/30_encoding.md R99, R101): the listing visits them, and pc stays at one -/

namespace Sys2Proof.Machine

theorem one_le_opcodeLength (b : Byte) : 1 ≤ opcodeLength b := by
  unfold opcodeLength
  split <;> omega

/-! ### The listing -/

/-- R101: what a listing shows at offset `p`. -/
inductive ListsAt (cfg : Config) (code : List Byte) (p : Nat) : ListingItem → Prop
  | instr {i : Instr} : decodeFor cfg (code.drop p) = .ok i → ListsAt cfg code p (.instr i)
  | data {b : Byte} : code[p]? = some b → decodeFor cfg (code.drop p) = .error (.unknownOpcode b) →
      ListsAt cfg code p (.data b)

section
variable {cfg : Config} {code : List Byte} {p q fuel : Nat} {b : Byte} {item : ListingItem}

theorem disassembleFrom_past_end (h : code[p]? = none) : disassembleFrom cfg code fuel p = [] := by
  cases fuel <;> simp [disassembleFrom, h]

/-- One line, then the rest of the listing. -/
theorem disassembleFrom_succ (cfg : Config) (fuel : Nat) (h : code[p]? = some b) :
    ∃ item, ListsAt cfg code p item ∧ disassembleFrom cfg code (fuel + 1) p =
      (p, item) :: disassembleFrom cfg code fuel (p + opcodeLength b) := by
  have hdrop := drop_of_getElem? h
  rcases decodeFor_cases cfg b (code.drop (p + 1)) with ⟨_, hd⟩ | ⟨_, i, hd⟩ <;> rw [← hdrop] at hd
  · exact ⟨.data b, .data h hd, by simp only [disassembleFrom, h, hd]⟩
  · exact ⟨.instr i, .instr hd, by simp only [disassembleFrom, h, hd]⟩

/-- Every line stands at an instruction start, with what the listing shows there. -/
theorem listed_at_start (hq : InstructionStart code q) (hmem : (p, item) ∈ disassembleFrom cfg code fuel q) :
    InstructionStart code p ∧ p < code.length ∧ ListsAt cfg code p item := by
  induction fuel generalizing q with
  | zero => cases hmem
  | succ fuel ih =>
    cases hb : code[q]? with
    | none => rw [disassembleFrom_past_end hb] at hmem; cases hmem
    | some b =>
      obtain ⟨item', hitem, hlist⟩ := disassembleFrom_succ cfg fuel hb
      rw [hlist] at hmem
      rcases List.mem_cons.1 hmem with heq | hmem
      · cases heq
        exact ⟨hq, (List.getElem?_eq_some_iff.1 hb).1, hitem⟩
      · exact ih (hq.next q b hb) hmem

/-- The listing from an instruction start on is the end of the whole listing. -/
theorem disassembleFrom_suffix (cfg : Config) (h : InstructionStart code p) :
    ∃ fuel, code.length ≤ p + fuel ∧ disassembleFrom cfg code fuel p <:+ disassemble cfg code := by
  induction h with
  | entry => exact ⟨code.length, by omega, List.suffix_refl _⟩
  | next p b _ hb ih =>
    obtain ⟨fuel, hfuel, hsuffix⟩ := ih
    have hlt : p < code.length := (List.getElem?_eq_some_iff.1 hb).1
    have hlen := one_le_opcodeLength b
    obtain ⟨fuel, rfl⟩ : ∃ k, fuel = k + 1 := ⟨fuel - 1, by omega⟩
    obtain ⟨item, _, hlist⟩ := disassembleFrom_succ cfg fuel hb
    rw [hlist] at hsuffix
    exact ⟨fuel, by omega, (List.suffix_cons _ _).trans hsuffix⟩

theorem exists_line_at_start (cfg : Config) (h : InstructionStart code p) (hlt : p < code.length) :
    ∃ item, (p, item) ∈ disassemble cfg code := by
  obtain ⟨fuel, hfuel, hsuffix⟩ := disassembleFrom_suffix cfg h
  obtain ⟨fuel, rfl⟩ : ∃ k, fuel = k + 1 := ⟨fuel - 1, by omega⟩
  obtain ⟨item, _, hlist⟩ := disassembleFrom_succ cfg fuel (List.getElem?_eq_getElem hlt)
  rw [hlist] at hsuffix
  exact ⟨item, hsuffix.subset List.mem_cons_self⟩

end

/-- Settles O10. -/
theorem disassemblyVisitsInstructionStarts : Obligations.DisassemblyVisitsInstructionStarts := by
  intro cfg code
  have sound {p : Nat} {item : ListingItem} (hmem : (p, item) ∈ disassemble cfg code) :=
    listed_at_start .entry hmem
  refine ⟨fun p => ⟨fun ⟨item, hmem⟩ => ?_, fun ⟨hstart, hlt⟩ => exists_line_at_start cfg hstart hlt⟩,
    fun p item hmem => ?_⟩
  · obtain ⟨hstart, hlt, _⟩ := sound hmem
    exact ⟨hstart, hlt⟩
  · obtain ⟨_, _, hitem⟩ := sound hmem
    cases hitem with
    | instr hd => simp [hd]
    | data hb hd => simp [hd, hb]

/-! ### Assembly -/

/-- R92: a complete instruction has the length that its opcode byte tells. -/
theorem encode_length {i : Instr} {op : Byte} {imm : List Byte} (hc : i.complete = true)
    (henc : encode i = op :: imm) : (encode i).length = opcodeLength op := by
  cases hf : i.pushForm with
  | none =>
    obtain ⟨op', hop, hlen, _⟩ := encode_op hf
    cases henc.symm.trans hop
    rw [hop, hlen]
    rfl
  | some form =>
    obtain ⟨n, bs⟩ := form
    obtain ⟨h₁, h₂, rfl, rfl⟩ := opcode_of_push henc hf
    have himm : imm.length = n := by simpa [Instr.complete, hf] using hc
    rw [opcodeLength_pushOpcode h₁ h₂, henc, List.length_cons, himm, Nat.add_comm]

theorem encode_eq_cons (i : Instr) : ∃ op imm, encode i = op :: imm := by
  rcases format_cases i with hop | ⟨p, hp, imm, rfl⟩
  · obtain ⟨op, henc, _⟩ := encode_op hop
    exact ⟨op, [], henc⟩
  · exact ⟨_, _, encode_push p hp imm⟩

/-- The listing of a program that stands at offset `p`. -/
theorem map_disassembleFrom {cfg : Config} {program : List Instr}
    (h : ∀ i ∈ program, i.complete = true ∧ i.present cfg = true) {code : List Byte} {p fuel : Nat}
    (hcode : code.drop p = assemble program) (hfuel : (assemble program).length ≤ fuel) :
    (disassembleFrom cfg code fuel p).map (fun line => line.2) = program.map ListingItem.instr := by
  induction program generalizing p fuel with
  | nil =>
    have hend : code[p]? = none := List.getElem?_eq_none (List.drop_eq_nil_iff.1 hcode)
    rw [disassembleFrom_past_end hend]
    rfl
  | cons i program ih =>
    obtain ⟨⟨hc, hp⟩, hrest⟩ := List.forall_mem_cons.1 h
    obtain ⟨op, imm, henc⟩ := encode_eq_cons i
    have hsplit : code.drop p = encode i ++ assemble program := hcode
    have hlen := encode_length hc henc
    have hpos := one_le_opcodeLength op
    have hfuel' : (encode i).length + (assemble program).length ≤ fuel := by
      rw [← List.length_append]
      exact hfuel
    have hbyte : code[p]? = some op := by
      rw [← List.head?_drop, hsplit, henc]
      rfl
    have hd : decodeFor cfg (code.drop p) = .ok i := by
      rw [hsplit]
      rw [decodeFor_of_decode cfg (decodeInvertsEncode.1 i _ hc), if_pos hp]
    have hnext : code.drop (p + opcodeLength op) = assemble program := by
      rw [← List.drop_drop, hsplit, ← hlen, List.drop_left]
    obtain ⟨fuel, rfl⟩ : ∃ k, fuel = k + 1 := ⟨fuel - 1, by omega⟩
    obtain ⟨item, hitem, hlist⟩ := disassembleFrom_succ cfg fuel hbyte
    have hshown : item = .instr i := by
      cases hitem with
      | instr hd' => cases hd.symm.trans hd'; rfl
      | data _ hd' => cases hd.symm.trans hd'
    rw [hlist, List.map_cons, List.map_cons, ih hrest hnext (by omega), hshown]

/-- Settles O9: the listing of the program that stands at offset 0. -/
theorem disassembleInvertsAssemble : Obligations.DisassembleInvertsAssemble :=
  fun _ _ h => map_disassembleFrom h rfl le_rfl

/-! ### pc -/

/-- R240: the analyzer moves from one instruction start to the next. -/
theorem scanAdvance_eq_opcodeLength (b : Byte) : scanAdvance b = opcodeLength b := by
  unfold scanAdvance
  split
  · next h => rw [h]; rfl
  · rfl

theorem scanFrom_start {code : List Byte} {fuel i p : Nat} (hi : InstructionStart code i)
    (hp : p ∈ scanFrom code fuel i) : InstructionStart code p := by
  induction fuel generalizing i with
  | zero => cases hp
  | succ fuel ih =>
    rw [scanFrom] at hp
    split at hp
    · cases hp
    · next b hb =>
      have hnext : InstructionStart code (i + scanAdvance b) := by
        rw [scanAdvance_eq_opcodeLength]
        exact hi.next i b hb
      split at hp
      · rcases List.mem_cons.1 hp with rfl | hp
        · exact hi
        · exact ih hnext hp
      · exact ih hnext hp

theorem jumpdests_start {code : List Byte} {p : Nat} (hp : p ∈ jumpdests code) : InstructionStart code p :=
  scanFrom_start .entry hp

/-- Where pc may stand after a decoded instruction, another one starts. -/
theorem start_of_pcAfter {s : State} {i : Instr} {q : Nat} (h : s.PcAtStart)
    (hd : decodeFor s.cfg (s.code.drop s.pc) = .ok i) (hq : PcAfter i (s.counted.withPc (s.pc + 1)) q) :
    InstructionStart s.code q := by
  obtain ⟨hjd, hstart⟩ := h
  have hlt : s.pc < s.code.length := pc_lt_of_decodeFor (cfg := s.cfg) (by simp [hd])
  have hbyte := List.getElem?_eq_getElem hlt
  rw [drop_of_getElem? hbyte] at hd
  have henc := (decode_ok_cases (decode_of_decodeFor hd)).1
  have hnext := hstart.next _ _ hbyte
  cases hq with
  | stays hf =>
    rw [opcodeLength_of_op henc hf] at hnext
    exact hnext
  | overImmediate hf =>
    obtain ⟨h₁, h₂, hop, _⟩ := opcode_of_push henc hf
    rw [hop, opcodeLength_pushOpcode h₁ h₂, ← Nat.add_assoc] at hnext
    exact hnext
  | jump _ hmem =>
    have hmem : q ∈ s.jd := hmem
    exact jumpdests_start (hjd ▸ hmem)

/-- R122: pc moves past an unassigned byte, to the instruction start after it. -/
theorem start_of_unknownOpcode {cfg : Config} {code : List Byte} {p : Nat} {op : Byte}
    (h : InstructionStart code p) (hd : decodeFor cfg (code.drop p) = .error (.unknownOpcode op)) :
    InstructionStart code (p + 1) := by
  have hlt : p < code.length := pc_lt_of_decodeFor (cfg := cfg) (by simp [hd])
  have hbyte := List.getElem?_eq_getElem hlt
  rw [drop_of_getElem? hbyte] at hd
  rcases decodeFor_cases cfg code[p] (code.drop (p + 1)) with ⟨hun, _⟩ | ⟨_, i, hok⟩
  · have hnext := h.next _ _ hbyte
    rwa [opcodeLength_of_unassigned hun] at hnext
  · cases hd.symm.trans hok

/-- An instruction after whose execution pc can only stand at an instruction start. -/
theorem exec_pcAtStart {i : Instr} {s t : State} (hjd : s.jd = jumpdests s.code)
    (hstart : ∀ q, PcAfter i s q → InstructionStart s.code q) (ht : exec i s = .next t) : t.PcAtStart := by
  obtain ⟨_, hcode, hjd', _⟩ := noInstructionWritesRunInputs i s t ht
  rw [State.PcAtStart, hcode, hjd']
  exact ⟨hjd, hstart _ (exec_pcAfter ht)⟩

theorem start_pcAtStart (cfg : Config) (r : RunRequest) (later : List RunRequest) :
    (State.start cfg r later).PcAtStart :=
  ⟨rfl, .entry⟩

/-- R134, R312: a terminal state is left by a `start` alone. -/
theorem eq_start_of_idle {s t : State} (ht : s.idle = .next t) : ∃ r later, t = State.start s.cfg r later := by
  unfold State.idle at ht
  split at ht
  · cases ht
  · next r later _ =>
    split at ht <;> cases ht
    exact ⟨r, later, rfl⟩

theorem step_running_pcAtStart {s t : State} (h : s.PcAtStart) (hr : s.runState = .running)
    (ht : step s = .next t) : t.PcAtStart := by
  have ⟨hjd, hstart⟩ := h
  rcases step_running_cases hr with ⟨_, hs⟩ | ⟨_, _, hs⟩ | ⟨_, _, op, hd, hs⟩ | ⟨_, _, _, hs⟩ |
    ⟨_, _, i, hd, hs⟩ <;> rw [hs] at ht
  · cases ht
    exact h
  · cases ht
    exact h
  · cases ht
    exact ⟨hjd, start_of_unknownOpcode hstart hd⟩
  · refine exec_pcAtStart (s := s.counted) hjd (fun q hq => ?_) ht
    cases hq with
    | stays _ => exact hstart
    | overImmediate hf => cases hf
    | jump hi _ => simp at hi
  · exact exec_pcAtStart (s := s.counted.withPc (s.pc + 1)) hjd (fun q hq => start_of_pcAfter (s := s) h hd hq) ht

/-- Settles O56: a running step by the cases of the Runner's iteration, a terminal one by the start it takes. -/
theorem pcStaysAtInstructionStart : Obligations.PcStaysAtInstructionStart := by
  refine ⟨fun s t h ht => ?_, start_pcAtStart⟩
  by_cases hr : s.runState = .running
  · exact step_running_pcAtStart h hr ht
  · rw [step_terminal hr] at ht
    obtain ⟨r, later, rfl⟩ := eq_start_of_idle ht
    exact start_pcAtStart _ r later

end Sys2Proof.Machine
end

section
/-! ## The iteration of the Runner (spec/40_dispatch_and_runner.md R120 to R135)

Decode, the poll and the step, each with one equation per case; what a running step answers is then read off
`step_running_cases` and `exec_effect`, and what a terminal one answers off `State.idle`. -/

namespace Sys2Proof.Machine

/-! ### Decode -/

section
variable {s : State}

/-- R123: past the end of code decode returns the built-in STOP. -/
theorem fetchDecode_past_end (h : s.code.length ≤ s.pc) : fetchDecode s = .ok .stop s := by
  have hd : decodeFor s.cfg (s.code.drop s.pc) = .error .noByte := by
    rw [List.drop_eq_nil_of_le h]
    rfl
  rcases fetchDecode_cases s with ⟨_, hf⟩ | ⟨op, h', _⟩ | ⟨i, h', _⟩
  · exact hf
  · cases hd.symm.trans h'
  · cases hd.symm.trans h'

/-- R122: an instruction is returned with pc past its opcode byte. -/
theorem fetchDecode_of_decodeFor {i : Instr} (hd : decodeFor s.cfg (s.code.drop s.pc) = .ok i) :
    fetchDecode s = .ok i (s.withPc (s.pc + 1)) := by
  rcases fetchDecode_cases s with ⟨h, _⟩ | ⟨op, h, _⟩ | ⟨j, h, hf⟩ <;> cases hd.symm.trans h
  exact hf

/-- R97, R122: an unassigned byte raises with its offset, pc being past it. -/
theorem fetchDecode_of_unassigned {op : Byte} (hop : s.code[s.pc]? = some op) (hun : Unassigned s.cfg op) :
    fetchDecode s = .raised (.unknownOpcode op s.pc) (s.withPc (s.pc + 1)) :=
  unassignedBytesAreUnknownOpcodes.2 s op hop hun

end

/-- Settles O6: an unassigned byte by `fetchDecode_of_unassigned`, an assigned one by `decodeFor_cases`. -/
theorem decodeAdvancesPcBeforeLookup : Obligations.DecodeAdvancesPcBeforeLookup := by
  refine fun s op hop => ⟨fetchDecode_of_unassigned hop, fun hassigned => ?_⟩
  have hdrop := drop_of_getElem? hop
  rcases decodeFor_cases s.cfg op (s.code.drop (s.pc + 1)) with ⟨hun, _⟩ | ⟨_, i, hd⟩
  · exact absurd hun hassigned
  · obtain ⟨henc, _⟩ := decode_ok_cases (decode_of_decodeFor hd)
    rw [← hdrop] at hd
    exact ⟨i, _, henc, hd, fetchDecode_of_decodeFor hd⟩

/-! ### The poll and the step -/

/-- R130, R320: the poll's test. -/
theorem State.limitReached_iff (s : State) :
    s.limitReached = true ↔ (s.hasBudget = true ∧ s.maxSteps ≤ s.steps) ∨ s.extStop.head? = some true := by
  have hsample : s.stopSample = true ↔ s.extStop.head? = some true := by
    unfold State.stopSample
    cases s.extStop <;> simp
  simp [State.limitReached, hsample]

section
variable {s t : State}

theorem step_of_halted (hr : s.runState = .running) (hh : s.halted = true) :
    step s = .next { s with runState := .haltedSuccess } := by
  rw [step_running hr, State.poll, if_pos hh]

theorem step_of_limitReached (hr : s.runState = .running) (hh : s.halted = false) (hl : s.limitReached = true) :
    step s = .next (s.afterPoll.takeError (.executionLimitReached s.limit s.steps)) := by
  rw [step_running hr, State.poll, if_neg (by simp [hh]), if_pos hl]

/-- R124: what decode returned is executed. -/
theorem step_of_fetched {i : Instr} (h : s.Ready) (hf : fetchDecode s.counted = .ok i t) : step s = exec i t := by
  obtain ⟨hr, hh, hl⟩ := h
  rw [step_running hr, State.poll, if_neg (by simp [hh]), if_neg (by simp [hl]), hf]

/-- R130, R310: an error of decode is taken. -/
theorem step_of_raised {e : ErrorInfo} (h : s.Ready) (hf : fetchDecode s.counted = .raised e t) :
    step s = .next (t.takeError e) := by
  obtain ⟨hr, hh, hl⟩ := h
  rw [step_running hr, State.poll, if_neg (by simp [hh]), if_neg (by simp [hl]), hf]

end

/-- Settles O42: decode after the poll and the count returns `i`, which the step executes. -/
theorem stepRunsDecodedInstruction : Obligations.StepRunsDecodedInstruction :=
  fun s _ h hd => step_of_fetched h (fetchDecode_of_decodeFor (s := s.counted) hd)

/-- Settles O43: decode returns STOP past the end of code, and the iteration after STOP finds `halted` set. -/
theorem implicitStop : Obligations.ImplicitStop := by
  intro s hready hpc
  have ⟨hr, _, _⟩ := hready
  exact ⟨fetchDecode_past_end hpc, step_of_fetched hready (fetchDecode_past_end (s := s.counted) hpc),
    step_of_halted hr rfl⟩

/-- Settles O44: the first two branches of the iteration, `limitReached` read as the rule writes the poll's test. -/
theorem haltedThenPoll : Obligations.HaltedThenPoll :=
  fun s hr => ⟨step_of_halted hr, fun hh hl => step_of_limitReached hr hh (s.limitReached_iff.2 hl)⟩

/-- Settles O45: decode after the poll and the count raises, and the step takes the error. -/
theorem unknownOpcodeEndsRun : Obligations.UnknownOpcodeEndsRun :=
  fun s _ h hop hun => step_of_raised h (fetchDecode_of_unassigned (s := s.counted) hop hun)

/-! ### What a running step answers -/

/-- R124, R130: every instruction is a sequence of statements, and answers their outcome. -/
theorem exec_eq_outcome (i : Instr) (s : State) : ∃ r : Res Unit, exec i s = r.outcome := by
  cases i with
  | stop => exact ⟨.ok () s.halt, rfl⟩
  | jumpdest => exact ⟨.ok () s, rfl⟩
  | _ => exact ⟨_, rfl⟩

/-- No instruction's meaning ends in a fault of the model or a refusal. -/
theorem exists_exec_next (i : Instr) (s : State) : ∃ t, exec i s = .next t := by
  obtain ⟨r, hr⟩ := exec_eq_outcome i s
  rcases r.outcome_cases with ⟨t, _, ht⟩ | ⟨e, t, _, ht⟩
  · exact ⟨t, hr.trans ht⟩
  · exact ⟨t.takeError e, hr.trans ht⟩

/-- R300, R310: an error that ends a run in halted-failure has one of the codes 1 to 8. -/
theorem ErrorInfo.code_le_of_endState {e : ErrorInfo} (h : e.endState = .haltedFailure) : e.code.toNat ≤ 8 := by
  cases e with
  | executionLimitReached => cases h
  | _ => simp [ErrorInfo.code]

/-- R310, R311: an instruction leaves the run's state and fault as they were, or ends the run with an error. -/
theorem exec_run_cases {i : Instr} {s t : State} (ht : exec i s = .next t) :
    (t.runState = s.runState ∧ t.fault = s.fault) ∨
    (t.runState = .haltedFailure ∧ ∃ e, t.fault = some e ∧ e.code.toNat ≤ 8) := by
  cases exec_effect ht with
  | writes _ hw => obtain ⟨⟩ := hw; exact .inl ⟨rfl, rfl⟩
  | fails _ _ he => exact .inr ⟨he, _, rfl, ErrorInfo.code_le_of_endState he⟩
  | stops => exact .inl ⟨rfl, rfl⟩
  | returns hw _ => obtain ⟨⟩ := hw; exact .inl ⟨rfl, rfl⟩

/-- Settles O46: the cases of the Runner's iteration, the last two by what an instruction can do. -/
theorem runningStepOutcomes : Obligations.RunningStepOutcomes := by
  intro s hr
  rcases step_running_cases hr with ⟨hh, hs⟩ | ⟨_, _, hs⟩ | ⟨_, _, op, _, hs⟩ | ⟨_, _, _, hs⟩ | ⟨_, _, i, _, hs⟩
  · exact ⟨_, hs, .inr (.inl ⟨rfl, hh, rfl⟩)⟩
  · exact ⟨_, hs, .inr (.inr (.inr ⟨rfl, _, _, rfl⟩))⟩
  · exact ⟨_, hs, .inr (.inr (.inl ⟨rfl, _, rfl, ErrorInfo.code_le_of_endState rfl⟩))⟩
  all_goals
    obtain ⟨t, ht⟩ := exists_exec_next _ _
    refine ⟨t, hs.trans ht, ?_⟩
    rcases exec_run_cases ht with ⟨hrun, hfault⟩ | hfail
    · exact .inl ⟨hrun.trans hr, hfault⟩
    · exact .inr (.inr (.inl hfail))

/-! ### Where a step has no next state -/

/-- R134: a terminal state with no start presented. -/
theorem State.idle_eq_fault_iff (s : State) : s.idle = .fault .runEnded ↔ s.requests = [] := by
  unfold State.idle
  split
  · next h => simp [h]
  · next h => split <;> simp [h]

/-- R343: a start whose code is too long. -/
theorem State.idle_eq_refused_iff (s : State) (r : Refusal) :
    s.idle = .refused r ↔ ∃ q later, s.requests = q :: later ∧
      s.cfg.codeMaxLen < q.code.length ∧ r = .codeTooLong q.code.length := by
  unfold State.idle
  split
  · next h => simp [h]
  · next q later h =>
    split
    · next hfits => simp [h, Nat.not_lt.2 hfits]
    · next hlong => simp [h, Nat.not_le.1 hlong, eq_comm]

/-- Settles O47: a running step has a next state (R135), a terminal one waits for a start it can take. -/
theorem onlyTerminalStatesStop : Obligations.OnlyTerminalStatesStop := by
  intro s
  by_cases hr : s.runState = .running
  · obtain ⟨t, ht, _⟩ := runningStepOutcomes s hr
    simp [ht, hr]
  · rw [step_terminal hr]
    exact ⟨s.idle_eq_fault_iff.trans (by simp [hr]), fun r => (s.idle_eq_refused_iff r).trans (by simp [hr])⟩

end Sys2Proof.Machine
end

section
/-! ## STOP and JUMPDEST (spec/41_stop.md R150, spec/47_control_flow.md R244) -/

namespace Sys2Proof.Machine

/-- R150: the one write of STOP. -/
@[simp] theorem exec_stop (s : State) : exec .stop s = .next s.halt := rfl

/-- R244: a marker. -/
@[simp] theorem exec_jumpdest (s : State) : exec .jumpdest s = .next s := rfl

/-- Settles O33: the bytes are those `encode` writes, which decode back; the results are the two equations of
`exec`. -/
theorem stopAndJumpdestResults : Obligations.StopAndJumpdestResults :=
  ⟨decodeInvertsEncode.2 .stop rfl, decodeInvertsEncode.2 .jumpdest rfl, fun s => ⟨exec_stop s, exec_jumpdest s⟩⟩

end Sys2Proof.Machine
end

section
/-! ## PUSH1 to PUSH32 (spec/42_push.md R160, R161)

Decode takes the bytes that are present; their value, padded or not, has no more than `n` bytes, so it is a Word and
`push` stores it or overflows. -/

namespace Sys2Proof

open Sys2Proof.Machine

theorem be_append (s t : List Byte) : be (s ++ t) = be s * 256 ^ t.length + be t := by
  rw [be, List.foldl_append, foldl_be]
  rfl

theorem be_replicate_zero (k : Nat) : be (List.replicate k 0) = 0 := by
  induction k with
  | zero => rfl
  | succ k ih => rw [List.replicate_succ, be_cons, ih]; simp

/-- R97: the byte of a PUSHn is assigned in every build. -/
theorem pushOpcode_assigned {n : Nat} (h₁ : 1 ≤ n) (h₂ : n ≤ 32) (cfg : Config) :
    ¬ Unassigned cfg (pushOpcode n) := by
  have hbyte := pushOpcode_toNat h₂
  unfold Unassigned
  omega

theorem decodeFor_push (cfg : Config) : ∀ p ∈ Instr.pushFamily, ∀ bytes,
    decodeFor cfg (pushOpcode p.1 :: bytes) = .ok (p.2 (bytes.take p.1)) := by
  intro p hp bytes
  obtain ⟨h₁, h₂, _⟩ := pushFamily_form p hp
  rcases decodeFor_cases cfg (pushOpcode p.1) bytes with ⟨hun, _⟩ | ⟨_, i, hi⟩
  · exact absurd hun (pushOpcode_assigned h₁ h₂ cfg)
  · cases (decode_of_decodeFor hi).symm.trans (decode_push p hp bytes)
    exact hi

end Sys2Proof

namespace Sys2Proof.Machine

/-! ### The value of the immediate -/

theorem immediateValue_presentBytes (n : Nat) (imm : List Byte) :
    immediateValue .presentBytes n imm = be imm := rfl

/-- R161: each missing byte shifts the value by one byte. -/
theorem immediateValue_rightPad (n : Nat) (imm : List Byte) :
    immediateValue .rightPad n imm = be imm * 256 ^ (n - imm.length) := by
  rw [immediateValue, be_append, List.length_replicate, be_replicate_zero, Nat.add_zero]

/-- R160: `v < 256^n`, in both modes. -/
theorem immediateValue_lt (mode : TruncPushMode) {n : Nat} {imm : List Byte} (h : imm.length ≤ n) :
    immediateValue mode n imm < 256 ^ n := by
  cases mode with
  | presentBytes =>
    calc be imm < 256 ^ imm.length := be_lt imm
      _ ≤ 256 ^ n := Nat.pow_le_pow_right (by decide) h
  | rightPad =>
    have hlen : (imm ++ List.replicate (n - imm.length) 0).length = n := by simp [h]
    calc be (imm ++ List.replicate (n - imm.length) 0) < 256 ^ _ := be_lt _
      _ = 256 ^ n := by rw [hlen]

/-- R26: what a PUSHn offers is in the range of a Word. -/
theorem immediateValue_lt_word (mode : TruncPushMode) {n : Nat} {imm : List Byte} (hn : n ≤ 32)
    (h : imm.length ≤ n) : immediateValue mode n imm < 2 ^ 256 :=
  calc immediateValue mode n imm < 256 ^ n := immediateValue_lt mode h
    _ ≤ 256 ^ 32 := Nat.pow_le_pow_right (by decide) hn
    _ = 2 ^ 256 := by norm_num

/-! ### The push of the immediate -/

section
variable {n : Nat} {imm : List Byte} {s : State}

/-- R160: below the bound of the stack the value is pushed, as the Word that it is. -/
theorem pushImmediate_of_room (hn : n ≤ 32) (himm : imm.length ≤ n) (hroom : s.stack.length < s.cfg.stackDepth) :
    ∃ v : Word, v.toNat = immediateValue s.cfg.truncPushMode n imm ∧
      pushImmediate n imm s = .ok () { s with pc := s.pc + n, stack := v :: s.stack } := by
  have hword := immediateValue_lt_word s.cfg.truncPushMode hn himm
  obtain ⟨_, _, hpush⟩ := pushPrimitive (immediateValue s.cfg.truncPushMode n imm) (s.withPc (s.pc + n))
  obtain ⟨v, hv, hpush⟩ := hpush (by omega) (by omega) hroom.ne
  exact ⟨v, Int.ofNat_inj.1 hv, hpush⟩

/-- R160: a full stack overflows, pc being past the immediate already. -/
theorem pushImmediate_of_full (hn : n ≤ 32) (himm : imm.length ≤ n) (hfull : s.stack.length = s.cfg.stackDepth) :
    pushImmediate n imm s = .raised (.stackOverflow s.cfg.stackDepth) (s.withPc (s.pc + n)) := by
  have hword := immediateValue_lt_word s.cfg.truncPushMode hn himm
  obtain ⟨_, hpush, _⟩ := pushPrimitive (immediateValue s.cfg.truncPushMode n imm) (s.withPc (s.pc + n))
  rw [← hfull]
  exact hpush (by omega) (by omega) hfull

end

/-- Settles O27: decode by `decodeFor_push`; room and overflow by the two lemmas on `pushImmediate`, the value read
in each mode by its equation. -/
theorem pushResults : Obligations.PushResults := by
  intro p hp
  obtain ⟨_, hn, _⟩ := pushFamily_form p hp
  refine ⟨fun s hop => fetchDecode_of_decodeFor ?_, fun s imm himm => ⟨fun hroom => ?_, fun hfull => ?_⟩⟩
  · rw [drop_of_getElem? hop]
    exact decodeFor_push s.cfg p hp _
  · obtain ⟨v, hv, hpush⟩ := pushImmediate_of_room hn himm hroom
    refine ⟨v, ?_, by rw [exec_pushFamily p hp, hpush, Res.outcome_ok]⟩
    rw [hv]
    cases s.cfg.truncPushMode with
    | presentBytes => exact immediateValue_presentBytes p.1 imm
    | rightPad => exact immediateValue_rightPad p.1 imm
  · rw [exec_pushFamily p hp, pushImmediate_of_full hn himm hfull]
    rfl

end Sys2Proof.Machine
end

section
/-! ## ADD, MUL, SUB (spec/43_arithmetic.md R170 to R174)

The binary pattern of R174 is taken once: what `binary f` answers on an empty stack, on one Word and on two. The three
instructions are that pattern for the operations of Words, whose unsigned and signed readings are facts of bit
vectors. -/

namespace Sys2Proof.Machine

/-! ### The binary pattern -/

section
variable {s : State} (f : Word → Word → Word)

/-- R174: two Words leave one, so the push has room on a stack within its bound. -/
theorem binary_of_two {a b : Word} {rest : List Word} (h : s.stack = a :: b :: rest)
    (hbound : s.stack.length ≤ s.cfg.stackDepth) : binary f s = .ok () (s.withStack (f a b :: rest)) := by
  have hroom : rest.length ≠ s.cfg.stackDepth := by
    rw [h, List.length_cons, List.length_cons] at hbound
    omega
  rw [binary, pop_cons h, Res.andThen_ok, pop_cons (State.withStack_stack _ _), Res.andThen_ok]
  rcases pushWord_cases (f a b) ((s.withStack (b :: rest)).withStack rest) with ⟨hfull, _⟩ | ⟨_, hpush⟩
  · exact absurd hfull hroom
  · exact hpush

theorem binary_of_none (h : s.stack = []) : binary f s = .raised (.stackUnderflow 1 0) s := by
  rw [binary, pop_nil h, Res.andThen_raised]

/-- R174: the second pop fails, and the Word that the first one popped is gone. -/
theorem binary_of_one {a : Word} (h : s.stack = [a]) :
    binary f s = .raised (.stackUnderflow 1 0) (s.withStack []) := by
  rw [binary, pop_cons h, Res.andThen_ok, pop_nil (State.withStack_stack _ _), Res.andThen_raised]

end

/-- An instruction whose meaning is `binary f` is the one that R174 describes. -/
theorem binaryInstr_of_exec {i : Instr} {f : Word → Word → Word} (hi : ∀ s, exec i s = (binary f s).outcome) :
    BinaryInstr i f := by
  refine ⟨fun s a b rest h hbound => ?two, fun s h => ?none, fun s a h => ?one⟩
  case two =>
    rw [hi, binary_of_two f h hbound]
    rfl
  case none =>
    rw [hi, binary_of_none f h]
    rfl
  case one =>
    rw [hi, binary_of_one f h]
    rfl

/-- R174 speaks of the results alone: two names of one operation describe the same instruction. -/
theorem BinaryInstr.congr {i : Instr} {f g : Word → Word → Word} (h : BinaryInstr i f)
    (hfg : ∀ a b, f a b = g a b) : BinaryInstr i g := by
  obtain rfl : f = g := funext₂ hfg
  exact h

/-- R171. -/
theorem add_binaryInstr : BinaryInstr .add (fun a b => a + b) := binaryInstr_of_exec fun _ => rfl

/-- R172. -/
theorem mul_binaryInstr : BinaryInstr .mul (fun a b => a * b) := binaryInstr_of_exec fun _ => rfl

/-- R173. -/
theorem sub_binaryInstr : BinaryInstr .sub (fun a b => a - b) := binaryInstr_of_exec fun _ => rfl

/-! ### The results modulo `2^256` -/

theorem word_add_eq (a b : Word) : a + b = BitVec.ofNat 256 ((a.toNat + b.toNat) % 2 ^ 256) := by
  apply BitVec.eq_of_toNat_eq
  rw [BitVec.toNat_add, BitVec.toNat_ofNat, Nat.mod_mod]

theorem word_mul_eq (a b : Word) : a * b = BitVec.ofNat 256 ((a.toNat * b.toNat) % 2 ^ 256) := by
  apply BitVec.eq_of_toNat_eq
  rw [BitVec.toNat_mul, BitVec.toNat_ofNat, Nat.mod_mod]

/-- The difference of the numbers may be negative; its residue is not. -/
theorem word_sub_eq (a b : Word) : a - b = BitVec.ofInt 256 (((a.toNat : Int) - b.toNat) % 2 ^ 256) := by
  apply BitVec.eq_of_toNat_eq
  rw [BitVec.toNat_sub, BitVec.toNat_ofInt]
  omega

/-- Settles O21: the bytes are those `encode` writes, which decode back; the results are the operations of Words,
read modulo `2^256`. -/
theorem addMulSubResults : Obligations.AddMulSubResults :=
  ⟨decodeInvertsEncode.2 .add rfl, decodeInvertsEncode.2 .mul rfl, decodeInvertsEncode.2 .sub rfl,
    add_binaryInstr.congr word_add_eq, mul_binaryInstr.congr word_mul_eq, sub_binaryInstr.congr word_sub_eq⟩

/-- Settles O22: the operations of Words wrap under the signed view as well. -/
theorem arithmeticWrapsSigned : Obligations.ArithmeticWrapsSigned := by
  intro s a b rest h hbound
  obtain ⟨hadd, _, _⟩ := add_binaryInstr
  obtain ⟨hmul, _, _⟩ := mul_binaryInstr
  obtain ⟨hsub, _, _⟩ := sub_binaryInstr
  exact ⟨a + b, a * b, a - b, hadd s a b rest h hbound, hmul s a b rest h hbound, hsub s a b rest h hbound,
    BitVec.toInt_add a b, BitVec.toInt_mul a b, BitVec.toInt_sub⟩

end Sys2Proof.Machine
end

section
/-! ## LT, GT, SLT, SGT, EQ, ISZERO (spec/44_comparison.md R190 to R196)

The five comparisons are the binary pattern of R174 for a relation of Words; ISZERO is one pop and one push. What is
left is R190: a relation the model decides is the Word 1 or 0, and the signed view is two's complement. -/

namespace Sys2Proof.Machine

/-! ### Relations as Words (R190) -/

/-- R190: `bool(c)` of a decided relation. -/
theorem boolWord_decide (c : Prop) [Decidable c] : boolWord (decide c) = if c then 1 else 0 := by
  simp only [boolWord, decide_eq_true_eq]

/-- R195: equality is on all 256 bits, so on the numbers. -/
theorem word_beq_eq_decide (a b : Word) : (a == b) = decide (a.toNat = b.toNat) := by
  rw [beq_eq_decide]
  exact decide_eq_decide.2 BitVec.toNat_inj.symm

/-- R12: the signed view of a Word is two's complement. -/
theorem signed_eq_toInt (v : Word) : signed v = v.toInt := by
  rw [BitVec.toInt_eq_toNat_cond, signed]
  split
  case isTrue h => rw [if_pos (by omega)]
  case isFalse h =>
    rw [if_neg (by omega)]
    rfl

/-! ### The binary comparisons -/

/-- R191. -/
theorem lt_binaryInstr : BinaryInstr .lt (fun a b => boolWord (decide (a.toNat < b.toNat))) :=
  binaryInstr_of_exec fun _ => rfl

/-- R192. -/
theorem gt_binaryInstr : BinaryInstr .gt (fun a b => boolWord (decide (a.toNat > b.toNat))) :=
  binaryInstr_of_exec fun _ => rfl

/-- R193. -/
theorem slt_binaryInstr : BinaryInstr .slt (fun a b => boolWord (decide (signed a < signed b))) :=
  binaryInstr_of_exec fun _ => rfl

/-- R194. -/
theorem sgt_binaryInstr : BinaryInstr .sgt (fun a b => boolWord (decide (signed a > signed b))) :=
  binaryInstr_of_exec fun _ => rfl

/-- R195. -/
theorem eq_binaryInstr : BinaryInstr .eq (fun a b => boolWord (a == b)) := binaryInstr_of_exec fun _ => rfl

/-- Settles O23: the bytes are those `encode` writes, which decode back; each result is the binary pattern's, its
relation read as a Word. -/
theorem comparisonResults : Obligations.ComparisonResults := by
  refine ⟨decodeInvertsEncode.2 .lt rfl, decodeInvertsEncode.2 .gt rfl, decodeInvertsEncode.2 .slt rfl,
    decodeInvertsEncode.2 .sgt rfl, decodeInvertsEncode.2 .eq rfl, ?lt, ?gt, ?slt, ?sgt, ?eq⟩
  case lt => exact lt_binaryInstr.congr fun _ _ => boolWord_decide _
  case gt => exact gt_binaryInstr.congr fun _ _ => boolWord_decide _
  case slt => exact slt_binaryInstr.congr fun a b => by rw [boolWord_decide, signed_eq_toInt, signed_eq_toInt]
  case sgt => exact sgt_binaryInstr.congr fun a b => by rw [boolWord_decide, signed_eq_toInt, signed_eq_toInt]
  case eq => exact eq_binaryInstr.congr fun a b => by rw [word_beq_eq_decide, boolWord_decide]

/-! ### The zero test -/

section
variable {s : State}

/-- R196: the Word popped makes room for the result, on a stack within its bound. -/
theorem execIszero_of_cons {a : Word} {rest : List Word} (h : s.stack = a :: rest)
    (hbound : s.stack.length ≤ s.cfg.stackDepth) :
    execIszero s = .next (s.withStack (boolWord (a == 0) :: rest)) := by
  have hroom : rest.length ≠ s.cfg.stackDepth := by
    rw [h, List.length_cons] at hbound
    omega
  rw [execIszero, pop_cons h, Res.andThen_ok]
  rcases pushWord_cases (boolWord (a == 0)) (s.withStack rest) with ⟨hfull, _⟩ | ⟨_, hpush⟩
  · exact absurd hfull hroom
  · rw [hpush, Res.outcome_ok]
    rfl

theorem execIszero_of_nil (h : s.stack = []) : execIszero s = .next (s.takeError (.stackUnderflow 1 0)) := by
  rw [execIszero, pop_nil h, Res.andThen_raised, Res.outcome_raised]

end

/-- Settles O24: the byte is the one `encode` writes, which decodes back; the result is the pop and the push of R196,
its test read as a Word. -/
theorem iszeroResult : Obligations.IszeroResult := by
  refine ⟨decodeInvertsEncode.2 .iszero rfl, fun s a rest h hbound => ?cons, fun s h => execIszero_of_nil h⟩
  case cons =>
    have hresult : boolWord (a == 0) = if a.toNat = 0 then 1 else 0 := by
      rw [word_beq_eq_decide, boolWord_decide]
      rfl
    rw [← hresult]
    exact execIszero_of_cons h hbound

end Sys2Proof.Machine
end

section
/-! ## DUP1 to DUP16, SWAP1 to SWAP16 (spec/45_stack_ops.md R210, R213)

A DUPn is `peek (n - 1)` and a push, a SWAPn is `swap n`; their results are those of the primitives of the Word Stack.
An exchange done twice restores every position, so the whole state. -/

namespace Sys2Proof

open Sys2Proof.Machine

/-! ### The opcode bytes (R95) -/

/-- An instruction of format OP is decoded from the byte that `encode` writes. -/
theorem decode_of_encode_op {i : Instr} {op : Byte} (hform : i.pushForm = none) (henc : encode i = [op]) :
    decode [op] = .ok i := by
  rw [← henc]
  exact decodeInvertsEncode.2 i (by simp [Instr.wellFormed, hform])

theorem encode_dup : ∀ p ∈ Instr.dupFamily, encode p.2 = [BitVec.ofNat 8 (0x7F + p.1)] := by decide

theorem encode_swap : ∀ p ∈ Instr.swapFamily, encode p.2 = [BitVec.ofNat 8 (0x8F + p.1)] := by decide

end Sys2Proof

namespace Sys2Proof.Machine

/-! ### The push of a Word and the copy of the n-th item (R22, R210) -/

section
variable {n : Nat} {s : State}

theorem pushWord_of_room (v : Word) (hroom : s.stack.length < s.cfg.stackDepth) :
    pushWord v s = .ok () (s.withStack (v :: s.stack)) := by
  rcases pushWord_cases v s with ⟨hfull, _⟩ | ⟨_, hpush⟩
  · exact absurd hfull hroom.ne
  · exact hpush

theorem pushWord_of_full (v : Word) (hfull : s.stack.length = s.cfg.stackDepth) :
    pushWord v s = .raised (.stackOverflow s.cfg.stackDepth) s := by
  rcases pushWord_cases v s with ⟨_, hpush⟩ | ⟨hroom, _⟩
  · rw [hpush, hfull]
  · exact absurd hfull hroom

/-- R210: with the item there, `dup n` is its push. -/
theorem dup_of_item {v : Word} (hv : s.stack[n - 1]? = some v) : dup n s = pushWord v s := by
  obtain ⟨_, _, _, hpeek⟩ := popAndPeekPrimitives
  rw [dup, hpeek (n - 1) s v hv, Res.andThen_ok]

/-- R210, D17: the peek fails before the push is tried, so on a full stack too. -/
theorem dup_of_underflow (hn : 1 ≤ n) (h : s.stack.length < n) :
    dup n s = .raised (.stackUnderflow n s.stack.length) s := by
  obtain ⟨_, _, hpeek, _⟩ := popAndPeekPrimitives
  have hpos : n - 1 + 1 = n := Nat.sub_add_cancel hn
  rw [dup, hpeek (n - 1) s (by omega), Res.andThen_raised, hpos]

end

/-- Settles O28: the byte by `encode_dup`; the peek decides between underflow and the push of the item, and the bound
of the stack between the result and overflow. -/
theorem dupResults : Obligations.DupResults := by
  intro p hp
  obtain ⟨hn, _, hexec⟩ := exec_dupFamily p hp
  refine ⟨decode_of_encode_op (dupFamily_form p hp) (encode_dup p hp), fun s =>
    ⟨fun v hv hroom => ?room, fun hshort => ?underflow, fun hdeep hfull => ?overflow⟩⟩
  case room =>
    rw [hexec, dup_of_item hv, pushWord_of_room v hroom]
    rfl
  case underflow =>
    rw [hexec, dup_of_underflow hn hshort]
    rfl
  case overflow =>
    have hitem : s.stack[p.1 - 1]? = some s.stack[p.1 - 1] := List.getElem?_eq_getElem (by omega)
    rw [hexec, dup_of_item hitem, pushWord_of_full _ hfull]
    rfl

/-! ### The exchange (R213) -/

/-- R213: a second exchange undoes the first, position by position. -/
theorem swap_swap {n : Nat} {s t : State} (h : swap n s = .ok () t) : swap n t = .ok () s := by
  obtain ⟨hshort, hdeep⟩ := swapPrimitive n s
  rcases Nat.lt_or_ge s.stack.length (n + 1) with hlt | hle
  · cases (hshort hlt).symm.trans h
  · obtain ⟨S, hS, hlen, htop, hnth, hframe, _⟩ := hdeep hle
    cases hS.symm.trans h
    obtain ⟨_, hdeep'⟩ := swapPrimitive n { s with stack := S }
    obtain ⟨S', hS', _, htop', hnth', hframe', _⟩ := hdeep' (hlen.symm ▸ hle)
    have hrestored : S' = s.stack := List.ext_getElem? fun j => by
      by_cases hj : j = 0
      · rw [hj, htop', hnth]
      by_cases hjn : j = n
      · rw [hjn, hnth', htop]
      rw [hframe' j hj hjn, hframe j hj hjn]
    rw [hS', hrestored]

/-- Settles O29: the byte by `encode_swap`; the result is the primitive's, and `swap_swap` takes it back. -/
theorem swapResults : Obligations.SwapResults := by
  intro p hp
  obtain ⟨_, _, hexec⟩ := exec_swapFamily p hp
  refine ⟨decode_of_encode_op (swapFamily_form p hp) (encode_swap p hp), fun s => ?_⟩
  obtain ⟨hshort, hdeep⟩ := swapPrimitive p.1 s
  refine ⟨fun h => ?exchange, fun h => ?underflow⟩
  case exchange =>
    obtain ⟨S, hS, hlen, htop, hnth, hframe, _⟩ := hdeep h
    exact ⟨S, by rw [hexec, hS, Res.outcome_ok], hlen, htop, hnth, hframe,
      by rw [hexec, swap_swap hS, Res.outcome_ok]⟩
  case underflow =>
    rw [hexec, hshort h]
    rfl

end Sys2Proof.Machine
end

section
/-! ## MSTORE8 (spec/46_memory_ops.md R230)

Two pops, then one `store` at a popped Word of a byte, so that the offset and value checks of R66 pass: what is left is
the capacity, which decides between the write and InvalidMemoryAccess. -/

namespace Sys2Proof.Machine

/-! ### Two pops (R23) -/

section
variable {α : Type} {s : State} (f : Word → Word → State → Res α)

theorem popTwo_of_two {a b : Word} {rest : List Word} (h : s.stack = a :: b :: rest) :
    ((pop s).andThen fun a s => (pop s).andThen fun b s => f a b s) = f a b (s.withStack rest) := by
  rw [pop_cons h, Res.andThen_ok, pop_cons (State.withStack_stack _ _), Res.andThen_ok]
  rfl

/-- R23: whichever pop fails, the stack it leaves is empty. -/
theorem popTwo_of_short (h : s.stack.length ≤ 1) :
    ((pop s).andThen fun a s => (pop s).andThen fun b s => f a b s) =
      .raised (.stackUnderflow 1 0) (s.withStack []) := by
  match hs : s.stack with
  | [] =>
    have hsame : s.withStack [] = s := by rw [← hs]; rfl
    rw [pop_nil hs, Res.andThen_raised, hsame]
  | [a] => rw [pop_cons hs, Res.andThen_ok, pop_nil (State.withStack_stack _ _), Res.andThen_raised]
  | a :: b :: rest =>
    rw [hs, List.length_cons, List.length_cons] at h
    omega

end

/-! ### The store of a Word's low byte (R66, R230) -/

section
variable {m : Memory} {limit : Nat} {o : Word} (v : Word)

/-- R66, D10: past the capacity the offset is reported, whatever memory holds. -/
theorem Memory.store_lowByte_of_exceeds (h : 32 * max m.words ((o.toNat + 1 + 31) / 32) > limit) :
    m.store limit o.toNat (v.toNat % 256 : Nat) = .error (.invalidMemoryAccess o.toNat none) := by
  rw [m.store_of_valid limit (by omega) (by omega) (by omega) (by omega), Int.toNat_natCast,
    Memory.grow_of_exceeds h]
  rfl

/-- R66, at an offset and for a value that no check of `store` refuses. -/
theorem Memory.store_lowByte_of_fits (hwf : m.wf = true)
    (h : 32 * max m.words ((o.toNat + 1 + 31) / 32) ≤ limit) :
    ∃ g, m.store limit o.toNat (v.toNat % 256 : Nat) = .ok g ∧
      g.words = max m.words ((o.toNat + 1 + 31) / 32) ∧
      (g.byteAt o.toNat).toNat = v.toNat % 256 ∧ ∀ a, a ≠ o.toNat → g.byteAt a = m.byteAt a := by
  obtain ⟨_, _, _, hfits⟩ := storePrimitive m limit o.toNat (v.toNat % 256 : Nat) hwf
  obtain ⟨g, hs, hwords, hbyte, hframe⟩ := hfits (by omega) (by omega) (by omega) (by omega) h
  exact ⟨g, hs, hwords, Int.ofNat_inj.1 hbyte, hframe⟩

end

/-! ### The instruction -/

section
variable {s : State} {o v : Word} {rest : List Word}

theorem execMstore8_of_two (h : s.stack = o :: v :: rest) :
    execMstore8 s = (storeByte o.toNat (v.toNat % 256 : Nat) (s.withStack rest)).outcome := by
  rw [execMstore8, popTwo_of_two _ h]

theorem execMstore8_of_store_ok {m : Memory} (h : s.stack = o :: v :: rest)
    (hs : s.mem.store s.cfg.memLimitBytes o.toNat (v.toNat % 256 : Nat) = .ok m) :
    execMstore8 s = .next ((s.withStack rest).withMem m) := by
  rw [execMstore8_of_two h, storeByte, State.withStack_mem, State.withStack_cfg, hs]
  rfl

theorem execMstore8_of_store_error {e : ErrorInfo} (h : s.stack = o :: v :: rest)
    (hs : s.mem.store s.cfg.memLimitBytes o.toNat (v.toNat % 256 : Nat) = .error e) :
    execMstore8 s = .next ((s.withStack rest).takeError e) := by
  rw [execMstore8_of_two h, storeByte, State.withStack_mem, State.withStack_cfg, hs]
  rfl

theorem execMstore8_of_short (h : s.stack.length ≤ 1) :
    execMstore8 s = .next ((s.withStack []).takeError (.stackUnderflow 1 0)) := by
  rw [execMstore8, popTwo_of_short _ h, Res.outcome_raised]

end

/-- Settles O30: the byte is the one `encode` writes, which decodes back; with two Words popped the capacity decides
between the store and its error, with fewer a pop has failed. -/
theorem mstore8Result : Obligations.Mstore8Result := by
  refine ⟨decode_of_encode_op rfl rfl, fun s o v rest hstack hwf hfits => ?fits,
    fun s o v rest hstack hexceeds => ?exceeds, fun s hshort => execMstore8_of_short hshort⟩
  case fits =>
    obtain ⟨m, hs, hwritten⟩ := Memory.store_lowByte_of_fits v hwf hfits
    exact ⟨m, execMstore8_of_store_ok hstack hs, hwritten⟩
  case exceeds => exact execMstore8_of_store_error hstack (Memory.store_lowByte_of_exceeds v hexceeds)

end Sys2Proof.Machine
end

section
/-! ## The Jump Destination Analyzer (spec/47_control_flow.md R240, R241)

A turn of the scan at offset `i` lists `i` when it holds 0x5B and goes on at the next instruction start. So the scan
from an instruction start on is the end of the whole scan, whatever turns are left beyond the end of code. -/

namespace Sys2Proof.Machine

section
variable {code : List Byte} {fuel fuel' i t : Nat} {b : Byte}

theorem scanFrom_past_end (h : code.length ≤ i) : scanFrom code fuel i = [] := by
  cases fuel <;> simp [scanFrom, h]

/-- One turn inside the code. -/
theorem scanFrom_succ (fuel : Nat) (h : code[i]? = some b) :
    scanFrom code (fuel + 1) i =
      (if b = 0x5B then [i] else []) ++ scanFrom code fuel (i + opcodeLength b) := by
  simp only [scanFrom, h, scanAdvance_eq_opcodeLength]
  split <;> rfl

/-- R240: what is listed holds 0x5B. -/
theorem scanFrom_marked (ht : t ∈ scanFrom code fuel i) : code[t]? = some 0x5B := by
  induction fuel generalizing i with
  | zero => cases ht
  | succ fuel ih =>
    cases hb : code[i]? with
    | none => rw [scanFrom_past_end (List.getElem?_eq_none_iff.1 hb)] at ht; cases ht
    | some b =>
      rw [scanFrom_succ fuel hb] at ht
      rcases List.mem_append.1 ht with ht | ht
      · split at ht
        · next h => cases List.mem_singleton.1 ht; rw [hb, h]
        · cases ht
      · exact ih ht

/-- R241: every turn advances, so turns enough to reach the end of code find all there is. -/
theorem scanFrom_eq_of_enough (h : code.length ≤ i + fuel) (h' : code.length ≤ i + fuel') :
    scanFrom code fuel i = scanFrom code fuel' i := by
  induction fuel generalizing i fuel' with
  | zero =>
    have hend : code.length ≤ i := h
    rw [scanFrom_past_end hend, scanFrom_past_end hend]
  | succ fuel ih =>
    rcases Nat.lt_or_ge i code.length with hlt | hend
    · obtain ⟨fuel', rfl⟩ : ∃ k, fuel' = k + 1 := ⟨fuel' - 1, by omega⟩
      have hb := List.getElem?_eq_getElem hlt
      have hpos := one_le_opcodeLength code[i]
      rw [scanFrom_succ fuel hb, scanFrom_succ fuel' hb, ih (fuel' := fuel') (by omega) (by omega)]
    · rw [scanFrom_past_end hend, scanFrom_past_end hend]

/-- R240: the scan visits every instruction start. -/
theorem scanFrom_suffix (h : InstructionStart code t) : scanFrom code code.length t <:+ jumpdests code := by
  induction h with
  | entry => exact List.suffix_refl _
  | next p b _ hb ih =>
    rw [scanFrom_eq_of_enough (fuel' := code.length + 1) (by omega) (by omega), scanFrom_succ _ hb] at ih
    exact (List.suffix_append _ _).trans ih

theorem mem_jumpdests_of_start (h : InstructionStart code t) (hb : code[t]? = some 0x5B) : t ∈ jumpdests code := by
  have hscan := scanFrom_suffix h
  rw [scanFrom_eq_of_enough (fuel' := code.length + 1) (by omega) (by omega), scanFrom_succ _ hb, if_pos rfl] at hscan
  exact hscan.subset List.mem_cons_self

end

/-- Settles O20: what the scan lists is a marked start, it visits every start, and more turns add nothing. -/
theorem jumpdestsAreMarkedInstructionStarts : Obligations.JumpdestsAreMarkedInstructionStarts :=
  fun _ => ⟨fun _ => ⟨fun h => ⟨jumpdests_start h, scanFrom_marked h⟩, fun ⟨h, hb⟩ => mem_jumpdests_of_start h hb⟩,
    fun _ => jumpdests_lt, fun _ h => scanFrom_eq_of_enough (by omega) (by omega)⟩

end Sys2Proof.Machine
end

section
/-! ## JUMP, JUMPI (spec/47_control_flow.md R245 to R248)

The target popped is looked up in `JD` (R245); JUMPI pops its condition first, and looks only when it is not 0. -/

namespace Sys2Proof.Machine

section
variable {s : State} {t : Word}

theorem jumpTo_outcome_of_mem (h : t.toNat ∈ s.jd) : (jumpTo t s).outcome = .next (s.withPc t.toNat) := by
  rw [jumpTo, if_pos h, Res.outcome_ok]

theorem jumpTo_outcome_of_not_mem (h : t.toNat ∉ s.jd) :
    (jumpTo t s).outcome = .next (s.takeError (.invalidJumpDestination t)) := by
  rw [jumpTo, if_neg h, Res.outcome_raised]

/-- R246: the target is popped before it is looked up. -/
theorem execJump_of_cons {rest : List Word} (h : s.stack = t :: rest) :
    execJump s = (jumpTo t (s.withStack rest)).outcome := by
  rw [execJump, pop_cons h, Res.andThen_ok]

theorem execJump_of_nil (h : s.stack = []) : execJump s = .next (s.takeError (.stackUnderflow 1 0)) := by
  rw [execJump, pop_nil h, Res.andThen_raised, Res.outcome_raised]

/-- R248: with the condition 0 the target is not looked at. -/
theorem execJumpi_of_zero {c : Word} {rest : List Word} (h : s.stack = t :: c :: rest) (hc : c.toNat = 0) :
    execJumpi s = .next (s.withStack rest) := by
  have hzero : c = 0 := BitVec.eq_of_toNat_eq hc
  rw [execJumpi, popTwo_of_two _ h, if_neg (not_not_intro hzero), Res.outcome_ok]

theorem execJumpi_of_nonzero {c : Word} {rest : List Word} (h : s.stack = t :: c :: rest) (hc : c.toNat ≠ 0) :
    execJumpi s = (jumpTo t (s.withStack rest)).outcome := by
  have hnonzero : c ≠ 0 := fun hzero => hc (congrArg BitVec.toNat hzero)
  rw [execJumpi, popTwo_of_two _ h, if_pos hnonzero]

theorem execJumpi_of_short (h : s.stack.length ≤ 1) :
    execJumpi s = .next ((s.withStack []).takeError (.stackUnderflow 1 0)) := by
  rw [execJumpi, popTwo_of_short _ h, Res.outcome_raised]

end

/-- Settles O34: after the pop, membership in `JD` decides between the jump and its rejection. -/
theorem jumpResult : Obligations.JumpResult := by
  refine ⟨decode_of_encode_op rfl rfl, fun s t rest h => ⟨fun hmem => ?taken, fun hnot => ?rejected⟩,
    fun s h => execJump_of_nil h⟩
  case taken => exact (execJump_of_cons h).trans (jumpTo_outcome_of_mem hmem)
  case rejected => exact (execJump_of_cons h).trans (jumpTo_outcome_of_not_mem hnot)

/-- Settles O35: the condition decides whether the target is looked up, and then membership in `JD` as for JUMP. -/
theorem jumpiResult : Obligations.JumpiResult := by
  refine ⟨decode_of_encode_op rfl rfl, fun s t c rest h => ⟨fun hc => execJumpi_of_zero h hc,
    fun hc hmem => ?taken, fun hc hnot => ?rejected⟩, fun s h => execJumpi_of_short h⟩
  case taken => exact (execJumpi_of_nonzero h hc).trans (jumpTo_outcome_of_mem hmem)
  case rejected => exact (execJumpi_of_nonzero h hc).trans (jumpTo_outcome_of_not_mem hnot)

end Sys2Proof.Machine
end

section
/-! ## RETURN (spec/48_return.md R270, R271)

After the two pops the capacity is checked first (D11); within it the outcome is `loadRange`'s, whose range check fails
at `2^256`. -/

namespace Sys2Proof.Machine

section
variable {s : State} {o n : Word}

theorem captureRange_of_exceeds (h : n.toNat > s.cfg.retLimitBytes) :
    captureRange o n s = .raised (.invalidMemoryAccess o.toNat (some n.toNat)) s :=
  if_pos h

/-- R64, R270: a range that ends at the largest offset or before. -/
theorem captureRange_of_inRange (hcap : n.toNat ≤ s.cfg.retLimitBytes)
    (hrange : n.toNat = 0 ∨ o.toNat + n.toNat ≤ 2 ^ 256) :
    captureRange o n s = .ok ((List.range n.toNat).map fun i => s.mem.byteAt (o.toNat + i)) s := by
  obtain ⟨_, _, _, hload⟩ := loadRangePrimitive s.mem o.toNat n.toNat
  rw [captureRange, if_neg (Nat.not_lt.2 hcap), hload (by omega) (by omega) (by omega) (by omega) (by omega)]
  rfl

/-- R64, R271: a range that runs past the largest offset. -/
theorem captureRange_of_outOfRange (hcap : n.toNat ≤ s.cfg.retLimitBytes)
    (hrange : o.toNat + n.toNat > 2 ^ 256) :
    captureRange o n s = .raised (.invalidMemoryAccess (2 ^ 256) none) s := by
  obtain ⟨_, _, hload, _⟩ := loadRangePrimitive s.mem o.toNat n.toNat
  rw [captureRange, if_neg (Nat.not_lt.2 hcap), hload (by omega) (by omega) (by omega) (by omega) (by omega)]
  rfl

theorem execReturn_of_captured {rest : List Word} {r : List Byte} (h : s.stack = o :: n :: rest)
    (hr : captureRange o n (s.withStack rest) = .ok r (s.withStack rest)) :
    execReturn s = .next ((s.withStack rest).withReturndata r).halt := by
  rw [execReturn, popTwo_of_two _ h, hr, Res.andThen_ok, Res.outcome_ok]

theorem execReturn_of_raised {rest : List Word} {e : ErrorInfo} (h : s.stack = o :: n :: rest)
    (hr : captureRange o n (s.withStack rest) = .raised e (s.withStack rest)) :
    execReturn s = .next ((s.withStack rest).takeError e) := by
  rw [execReturn, popTwo_of_two _ h, hr, Res.andThen_raised, Res.outcome_raised]

theorem execReturn_of_short (h : s.stack.length ≤ 1) :
    execReturn s = .next ((s.withStack []).takeError (.stackUnderflow 1 0)) := by
  rw [execReturn, popTwo_of_short _ h, Res.outcome_raised]

end

/-- Settles O32: with two Words popped the capacity, then the range, decides between the capture and an error; with
fewer a pop has failed. -/
theorem returnResult : Obligations.ReturnResult := by
  refine ⟨decode_of_encode_op rfl rfl, fun s o n rest hstack => ⟨fun hcap hrange => ?captured,
    fun hcap => ?overCapacity, fun hcap _ hrange => ?outOfRange⟩, fun s hshort => execReturn_of_short hshort⟩
  case captured => exact execReturn_of_captured hstack (captureRange_of_inRange hcap hrange)
  case overCapacity => exact execReturn_of_raised hstack (captureRange_of_exceeds hcap)
  case outOfRange => exact execReturn_of_raised hstack (captureRange_of_outOfRange hcap hrange)

end Sys2Proof.Machine
end

section
/-! ## DIV and CODECOPY (spec/49_optional_extensions.md R280 to R282)

Decode gives either instruction to a build that has it. DIV is the binary pattern for the quotient of Words; CODECOPY
is three pops and `copyCode`, whose write into grown memory is read back as for the stores. -/

namespace Sys2Proof.Machine

/-! ### DIV -/

/-- R280: 0 for divisor 0, since the quotient of numbers is. -/
theorem div_binaryInstr : BinaryInstr .div (fun a b => BitVec.ofNat 256 (a.toNat / b.toNat)) := by
  refine BinaryInstr.congr (binaryInstr_of_exec fun _ => rfl) fun a b => ?_
  by_cases hb : b = 0
  · simp [hb]
  · rw [if_neg hb]

/-- Settles O25: decode by the parameter `EXT_DIV`, the quotient by `div_binaryInstr`. -/
theorem divResult : Obligations.DivResult := by
  refine ⟨fun cfg rest hext => ?decoded, div_binaryInstr.congr fun a b => ?quotient⟩
  case decoded => exact (decodeFor_of_decode cfg (i := .div) rfl).trans (if_pos hext)
  case quotient =>
    by_cases hb : b.toNat = 0
    · rw [if_pos hb, hb, Nat.div_zero]
      rfl
    · rw [if_neg hb]

/-- The quotient of two Words is a Word. -/
theorem toNat_ofNat_div (a b : Word) : (BitVec.ofNat 256 (a.toNat / b.toNat)).toNat = a.toNat / b.toNat := by
  rw [BitVec.toNat_ofNat, Nat.mod_eq_of_lt ((Nat.div_le_self _ _).trans_lt a.isLt)]

/-- Settles O26: the quotient is that of the numbers; without `EXT_DIV` the byte 0x04 is unassigned. -/
theorem divisionLaws : Obligations.DivisionLaws := by
  refine ⟨fun s a b rest hstack hbound hb => ?law, fun s hext hop => ?absent⟩
  case law =>
    obtain ⟨hexec, _, _⟩ := div_binaryInstr
    have hpos : 0 < b.toNat := Nat.pos_of_ne_zero fun h => hb (BitVec.eq_of_toNat_eq h)
    exact ⟨_, hexec s a b rest hstack hbound, by rw [toNat_ofNat_div, Nat.div_add_mod'], Nat.mod_lt _ hpos⟩
  case absent => exact fetchDecode_of_unassigned hop (by simp [Unassigned, hext])

/-! ### CODECOPY -/

section
variable {s : State} {d o n : Word} {rest : List Word}

theorem execCodecopy_of_three (h : s.stack = d :: o :: n :: rest) :
    execCodecopy s = (copyCode d.toNat o.toNat n.toNat (s.withStack rest)).outcome := by
  rw [execCodecopy, popTwo_of_two _ h, pop_cons (State.withStack_stack _ _), Res.andThen_ok]
  rfl

/-- R23: whichever of the three pops fails, the stack it leaves is empty. -/
theorem execCodecopy_of_short (h : s.stack.length ≤ 2) :
    execCodecopy s = .next ((s.withStack []).takeError (.stackUnderflow 1 0)) := by
  match hs : s.stack with
  | [] | [_] => rw [execCodecopy, popTwo_of_short _ (by simp [hs]), Res.outcome_raised]
  | [d, o] =>
    rw [execCodecopy, popTwo_of_two _ hs, pop_nil (State.withStack_stack _ _), Res.andThen_raised,
      Res.outcome_raised]
  | _ :: _ :: _ :: _ =>
    simp only [hs, List.length_cons] at h
    omega

end

/-- R282: byte `i` of the range is the code byte at `o + i`, 0 past the end of code. -/
theorem getD_codeRange (code : List Byte) (o : Nat) {i n : Nat} (h : i < n) :
    (codeRange code o n).getD i unlistedByte = code.getD (o + i) 0 := by
  simp [codeRange, codeByte, h]

/-- R66, R282: what a copy leaves in memory. -/
theorem Memory.copied_byteAt {m g : Memory} {limit d o n : Nat} {code : List Byte} (hwf : m.wf = true)
    (hg : m.grow limit d n = .ok g) :
    (∀ i, i < n → (g.writeBytes d (codeRange code o n)).byteAt (d + i) = code.getD (o + i) 0) ∧
    ∀ a, (a < d ∨ d + n ≤ a) → (g.writeBytes d (codeRange code o n)).byteAt a = m.byteAt a := by
  have hread := Memory.byteAt_writeBytes_grow (bs := codeRange code o n) hwf (by rw [codeRange_length]; exact hg)
  rw [codeRange_length] at hread
  refine ⟨fun i hi => ?_, fun a ha => ?_⟩
  · rw [hread, if_pos (by omega), Nat.add_sub_cancel_left, getD_codeRange code o hi]
  · rw [hread, if_neg (by omega)]

/-- Settles O31: decode by the parameter `EXT_CODECOPY`; with three Words popped the size and the capacity decide
between nothing, the copy and its error, with fewer a pop has failed. -/
theorem codecopyResult : Obligations.CodecopyResult := by
  refine ⟨fun cfg bs => decodeFor_of_decode cfg (i := .codecopy) rfl,
    fun s d o n rest hstack => ⟨fun hn => ?empty, fun hn hexceeds => ?exceeds, fun hn hwf hfits => ?fits⟩,
    fun s hshort => execCodecopy_of_short hshort⟩
  case empty => exact (execCodecopy_of_three hstack).trans (by rw [copyCode, if_pos hn]; rfl)
  case exceeds =>
    refine (execCodecopy_of_three hstack).trans ?_
    rw [copyCode, if_neg hn, State.withStack_mem, State.withStack_cfg, Memory.grow_of_exceeds hexceeds]
    rfl
  case fits =>
    have hg := Memory.grow_of_fits hfits
    refine ⟨_, (execCodecopy_of_three hstack).trans ?_, Memory.writeBytes_words _ _ _,
      Memory.copied_byteAt (code := s.code) (o := o.toNat) hwf hg⟩
    rw [copyCode, if_neg hn, State.withStack_mem, State.withStack_cfg, hg]
    rfl

end Sys2Proof.Machine
end

section
/-! ## Errors (spec/60_exceptions.md R300 to R311) -/

namespace Sys2Proof.Machine

/-- Settles O60: the two halves of the table, kind by kind. -/
theorem errorCodesAndEntry : Obligations.ErrorCodesAndEntry := by
  refine ⟨fun _ _ _ _ _ _ _ _ => ⟨rfl, rfl, rfl, rfl, rfl, rfl, rfl, rfl, rfl⟩, fun s e => ?_⟩
  have hend : e.endState = if e.code.toNat ≤ 8 then .haltedFailure else .stepLimitExceeded := by
    cases e <;> rfl
  rw [State.takeError, hend]

/-! ### An error leaves memory, return data and `halted` as before (R311, D15) -/

section
variable {s t : State}

/-- R230: MSTORE8 writes memory only when it completes. -/
theorem execMstore8_mem_or_completes (ht : execMstore8 s = .next t) :
    t.mem = s.mem ∨ t.fault = s.fault ∧ t.runState = s.runState := by
  match hs : s.stack with
  | [] | [_] =>
    cases (execMstore8_of_short (by simp [hs])).symm.trans ht
    exact .inl rfl
  | o :: v :: _ =>
    cases hm : s.mem.store s.cfg.memLimitBytes o.toNat (v.toNat % 256 : Nat) with
    | ok m =>
      cases (execMstore8_of_store_ok hs hm).symm.trans ht
      exact .inr ⟨rfl, rfl⟩
    | error e =>
      cases (execMstore8_of_store_error hs hm).symm.trans ht
      exact .inl rfl

/-- R282: CODECOPY writes memory only when it completes. -/
theorem execCodecopy_mem_or_completes (ht : execCodecopy s = .next t) :
    t.mem = s.mem ∨ t.fault = s.fault ∧ t.runState = s.runState := by
  match hs : s.stack with
  | [] | [_] | [_, _] =>
    cases (execCodecopy_of_short (by simp [hs])).symm.trans ht
    exact .inl rfl
  | d :: o :: n :: rest =>
    rw [execCodecopy_of_three hs] at ht
    rcases copyCode_cases d.toNat o.toNat n.toNat (s.withStack rest) with ⟨_, hc⟩ | ⟨_, _, hc⟩ | ⟨_, _, _, hc⟩ <;>
      rw [hc] at ht <;> cases ht
    · exact .inl rfl
    · exact .inl rfl
    · exact .inr ⟨rfl, rfl⟩

theorem exec_mem_or_completes {i : Instr} (ht : exec i s = .next t) :
    t.mem = s.mem ∨ t.fault = s.fault ∧ t.runState = s.runState := by
  by_cases hstore : i = .mstore8
  · subst hstore; exact execMstore8_mem_or_completes ht
  by_cases hcopy : i = .codecopy
  · subst hcopy; exact execCodecopy_mem_or_completes ht
  obtain ⟨hframe, _⟩ := memoryFrame i s t ht
  exact .inl (hframe hstore hcopy)

end

/-- Settles O40: of the four effects of an instruction one takes an error, before any write of memory. -/
theorem instructionErrorsArePrecise : Obligations.InstructionErrorsArePrecise := by
  intro i s
  obtain ⟨t, ht⟩ := exists_exec_next i s
  refine ⟨t, ht, ?_⟩
  rcases exec_mem_or_completes ht with hmem | hdone
  · cases exec_effect ht with
    | writes _ hw => obtain ⟨⟩ := hw; exact .inl ⟨rfl, rfl⟩
    | fails _ hw he =>
      obtain ⟨⟩ := hw
      exact .inr ⟨_, rfl, ErrorInfo.code_le_of_endState he, he, hmem, rfl, rfl⟩
    | stops => exact .inl ⟨rfl, rfl⟩
    | returns hw _ => obtain ⟨⟩ := hw; exact .inl ⟨rfl, rfl⟩
  · exact .inl hdone

/-! ### The errors of the units that no instruction raises (R302)

Every operation is read again as a postcondition, now of the error kinds it can raise. An instruction offers the units
Words, bytes and natural offsets alone, a decoded PUSHn among them because its immediate is not too long. -/

/-- R302: the kinds that only a unit used by itself can raise. -/
def ErrorInfo.UnitOnly : ErrorInfo → Prop
  | .invalidStackItem _ | .invalidMemoryValue _ | .invalidCodeOffset _ => True
  | _ => False

/-- From a state whose error record is `f`: `r` answers with the record untouched, or raises an error of another
kind than R302's. -/
def Res.RaisesInRun {α : Type} (f : Option ErrorInfo) : Res α → Prop
  | .ok _ t => t.fault = f
  | .raised e _ => ¬ e.UnitOnly

theorem Res.RaisesInRun.andThen {α β : Type} {f : Option ErrorInfo} {r : Res α} {next : α → State → Res β}
    (hr : r.RaisesInRun f) (hnext : ∀ v t, t.fault = f → (next v t).RaisesInRun f) :
    (r.andThen next).RaisesInRun f := by
  cases r with
  | ok v t => exact hnext v t hr
  | raised e t => exact hr

section
variable (s : State)

theorem pop_raisesInRun : (pop s).RaisesInRun s.fault := by
  rcases pop_cases s with ⟨_, h⟩ | ⟨_, _, _, h⟩ <;> rw [h]
  · exact not_false
  · rfl

theorem pushWord_raisesInRun (v : Word) : (pushWord v s).RaisesInRun s.fault := by
  rcases pushWord_cases v s with ⟨_, h⟩ | ⟨_, h⟩ <;> rw [h]
  · exact not_false
  · rfl

theorem peek_raisesInRun (i : Nat) : (peek i s).RaisesInRun s.fault := by
  rcases peek_cases i s with ⟨_, h⟩ | ⟨_, _, h⟩ <;> rw [h]
  · exact not_false
  · rfl

theorem swap_raisesInRun (i : Nat) : (swap i s).RaisesInRun s.fault := by
  rcases swap_cases i s with ⟨_, h⟩ | ⟨_, _, _, _, h⟩ <;> rw [h]
  · exact not_false
  · rfl

theorem jumpTo_raisesInRun (w : Word) : (jumpTo w s).RaisesInRun s.fault := by
  rcases jumpTo_cases w s with ⟨_, h⟩ | ⟨_, h⟩ <;> rw [h]
  · rfl
  · exact not_false

theorem copyCode_raisesInRun (d o n : Nat) : (copyCode d o n s).RaisesInRun s.fault := by
  rcases copyCode_cases d o n s with ⟨_, h⟩ | ⟨_, _, h⟩ | ⟨_, _, _, h⟩ <;> rw [h]
  · rfl
  · exact not_false
  · rfl

/-- R230: MSTORE8 offers a byte at the offset of a Word, so capacity is what can fail. -/
theorem storeByte_raisesInRun (o v : Word) : (storeByte o.toNat (v.toNat % 256 : Nat) s).RaisesInRun s.fault := by
  rw [storeByte, s.mem.store_of_valid _ (by omega) (by omega) (by omega) (by omega)]
  rcases s.mem.grow_cases s.cfg.memLimitBytes (o.toNat : Int).toNat 1 with ⟨_, h⟩ | ⟨_, h⟩ <;> rw [h]
  · exact not_false
  · rfl

theorem captureRange_raisesInRun (o n : Word) : (captureRange o n s).RaisesInRun s.fault := by
  by_cases hcap : n.toNat ≤ s.cfg.retLimitBytes
  · by_cases hrange : n.toNat = 0 ∨ o.toNat + n.toNat ≤ 2 ^ 256
    · rw [captureRange_of_inRange hcap hrange]
      rfl
    · rw [captureRange_of_outOfRange hcap (by omega)]
      exact not_false
  · rw [captureRange_of_exceeds (Nat.not_le.1 hcap)]
    exact not_false

/-- R26: the immediate that is read is in the range of a Word. -/
theorem pushImmediate_raisesInRun {n : Nat} {imm : List Byte} (hn : n ≤ 32) (himm : imm.length ≤ n) :
    (pushImmediate n imm s).RaisesInRun s.fault := by
  have hword := immediateValue_lt_word s.cfg.truncPushMode hn himm
  rw [pushImmediate, readCode, Res.andThen_ok]
  rcases push_cases (immediateValue s.cfg.truncPushMode n imm) (s.withPc (s.pc + n)) with
    ⟨h, _⟩ | ⟨_, _, h⟩ | ⟨_, _, h⟩
  · omega
  · rw [h]; exact not_false
  · rw [h]; rfl

theorem dup_raisesInRun (n : Nat) : (dup n s).RaisesInRun s.fault :=
  (peek_raisesInRun s (n - 1)).andThen fun v t ht => ht ▸ pushWord_raisesInRun t v

theorem popThen_raisesInRun {α : Type} {next : Word → State → Res α}
    (hnext : ∀ v t, (next v t).RaisesInRun t.fault) : ((pop s).andThen next).RaisesInRun s.fault :=
  (pop_raisesInRun s).andThen fun v t ht => ht ▸ hnext v t

theorem binary_raisesInRun (f : Word → Word → Word) : (binary f s).RaisesInRun s.fault :=
  popThen_raisesInRun s fun _ t => popThen_raisesInRun t fun _ u => pushWord_raisesInRun u _

end

/-- R302: an instruction that decode can return raises no error of a unit used by itself. -/
theorem exec_raisesInRun {i : Instr} (hw : i.wellFormed = true) (s : State) :
    ∃ r : Res Unit, exec i s = r.outcome ∧ r.RaisesInRun s.fault := by
  rcases Instr_families i with hi | ⟨p, hp, imm, rfl⟩ | ⟨p, hp, rfl⟩ | ⟨p, hp, rfl⟩
  · simp only [List.mem_cons, List.not_mem_nil, or_false] at hi
    rcases hi with rfl | rfl | rfl | rfl | rfl | rfl | rfl | rfl | rfl | rfl | rfl | rfl | rfl | rfl | rfl | rfl | rfl
    · exact ⟨.ok () s.halt, rfl, rfl⟩
    · exact ⟨_, rfl, binary_raisesInRun s _⟩
    · exact ⟨_, rfl, binary_raisesInRun s _⟩
    · exact ⟨_, rfl, binary_raisesInRun s _⟩
    · exact ⟨_, rfl, binary_raisesInRun s _⟩
    · exact ⟨_, rfl, binary_raisesInRun s _⟩
    · exact ⟨_, rfl, binary_raisesInRun s _⟩
    · exact ⟨_, rfl, binary_raisesInRun s _⟩
    · exact ⟨_, rfl, binary_raisesInRun s _⟩
    · exact ⟨_, rfl, binary_raisesInRun s _⟩
    · exact ⟨_, rfl, popThen_raisesInRun s fun _ t => pushWord_raisesInRun t _⟩
    · exact ⟨_, rfl, popThen_raisesInRun s fun _ t => popThen_raisesInRun t fun _ u =>
        popThen_raisesInRun u fun _ w => copyCode_raisesInRun w _ _ _⟩
    · exact ⟨_, rfl, popThen_raisesInRun s fun o t => popThen_raisesInRun t fun v u =>
        storeByte_raisesInRun u o v⟩
    · exact ⟨_, rfl, popThen_raisesInRun s fun w t => jumpTo_raisesInRun t w⟩
    · refine ⟨_, rfl, popThen_raisesInRun s fun w t => popThen_raisesInRun t fun c u => ?_⟩
      by_cases hc : c ≠ 0
      · rw [if_pos hc]; exact jumpTo_raisesInRun u w
      · rw [if_neg hc]; rfl
    · exact ⟨.ok () s, rfl, rfl⟩
    · exact ⟨_, rfl, popThen_raisesInRun s fun o t => popThen_raisesInRun t fun n u =>
        (captureRange_raisesInRun u o n).andThen fun _ _ h => h⟩
  · obtain ⟨_, hn, hform⟩ := pushFamily_form p hp
    have himm : imm.length ≤ p.1 := by simpa [Instr.wellFormed, hform] using hw
    exact ⟨_, exec_pushFamily p hp imm s, pushImmediate_raisesInRun s hn himm⟩
  · obtain ⟨_, _, hexec⟩ := exec_dupFamily p hp
    exact ⟨_, hexec s, dup_raisesInRun s p.1⟩
  · obtain ⟨_, _, hexec⟩ := exec_swapFamily p hp
    exact ⟨_, hexec s, swap_raisesInRun s p.1⟩

theorem exec_fault_cases {i : Instr} {s t : State} (hw : i.wellFormed = true) (ht : exec i s = .next t) :
    t.fault = s.fault ∨ ∃ e, t.fault = some e ∧ ¬ e.UnitOnly := by
  obtain ⟨r, hr, hraises⟩ := exec_raisesInRun hw s
  rw [hr] at ht
  cases r with
  | ok _ u => cases ht; exact .inl hraises
  | raised e u => cases ht; exact .inr ⟨e, rfl, hraises⟩

/-- R96: what the Runner decodes is well-formed. -/
theorem wellFormed_of_decodeFor {cfg : Config} {bytes : List Byte} {i : Instr} (h : decodeFor cfg bytes = .ok i) :
    i.wellFormed = true :=
  (encodeInvertsDecode bytes i (decode_of_decodeFor h)).1

theorem step_fault_cases {s t : State} (hr : s.runState = .running) (ht : step s = .next t) :
    t.fault = s.fault ∨ ∃ e, t.fault = some e ∧ ¬ e.UnitOnly := by
  rcases step_running_cases hr with ⟨_, hs⟩ | ⟨_, _, hs⟩ | ⟨_, _, _, _, hs⟩ | ⟨_, _, _, hs⟩ | ⟨_, _, i, hd, hs⟩ <;>
    rw [hs] at ht
  · cases ht; exact .inl rfl
  · cases ht; exact .inr ⟨_, rfl, not_false⟩
  · cases ht; exact .inr ⟨_, rfl, not_false⟩
  · exact exec_fault_cases (s := s.counted) rfl ht
  · exact exec_fault_cases (s := s.counted.withPc (s.pc + 1)) (wellFormed_of_decodeFor hd) ht

/-- Settles O41: a running step records no error or one of the other kinds. -/
theorem unitOnlyErrorsAreUnreachable : Obligations.UnitOnlyErrorsAreUnreachable := by
  refine ⟨fun s t hr hnone ht => ?_, fun _ => ⟨rfl, rfl, rfl⟩⟩
  have hnot {e : ErrorInfo} (he : e.UnitOnly) : t.fault ≠ some e := by
    intro h
    rcases step_fault_cases hr ht with hkept | ⟨e', h', hother⟩
    · cases (hkept.trans hnone).symm.trans h
    · cases h.symm.trans h'
      exact hother he
  exact ⟨fun _ => hnot trivial, fun _ => hnot trivial, fun _ => hnot trivial⟩

end Sys2Proof.Machine
end

section
/-! ## Reset and start (spec/70_reset_and_hazards.md R340, R341, R346)

A terminal state takes the next start or waits; a running one with a budget counts a step or ends its run. -/

namespace Sys2Proof.Machine

/-- Settles O48: the fields as `State.start` writes them, and an empty memory that reads zero everywhere. -/
theorem startGivesResetValues : Obligations.StartGivesResetValues :=
  fun _ _ _ => ⟨rfl, rfl, rfl, rfl, Memory.activeWords_eq _, fun _ => Memory.byteAt_of_len_le (Nat.zero_le _),
    rfl, rfl, rfl, rfl, rfl, rfl, rfl, rfl, rfl, rfl⟩

/-- Settles O49. -/
theorem resetIsStartOfEmptyCode : Obligations.ResetIsStartOfEmptyCode := rfl

/-- Settles O55: the default parameters are in their ranges, everything else is empty, zero or of a fresh run. -/
theorem resetHasInv : Obligations.ResetHasInv where
  cfgWf := by decide
  codeBounded := Nat.zero_le _
  pcBounded := Nat.zero_le _
  stackBounded := Nat.zero_le _
  memWf := Memory.empty_wf
  memBounded := Nat.zero_le _
  returndataBounded := Nat.zero_le _
  jdIsJumpdests := rfl
  returndataWhenHalted _ := rfl
  haltedNotFailed h := nomatch h
  noFaultUnlessEnded _ := rfl
  successIsHalted h := nomatch h
  failureHasFault h := nomatch h
  limitHasFault h := nomatch h
  budgetKept h := nomatch h

/-! ### A terminal state -/

/-- R312, R343: a terminal state is left by the next start, if its code fits. -/
theorem State.idle_eq_next_iff (s t : State) :
    s.idle = .next t ↔ ∃ r later, s.requests = r :: later ∧ r.code.length ≤ s.cfg.codeMaxLen ∧
      t = State.start s.cfg r later := by
  unfold State.idle
  split
  · next h => simp [h]
  · next r later h =>
    split
    · next hfits => simp [h, hfits, eq_comm]
    · next hlong => simp [h, hlong]

/-- R341: the parameters and the requests are all that a terminal state is asked for. -/
theorem State.idle_congr {s₁ s₂ : State} (hcfg : s₁.cfg = s₂.cfg) (hreq : s₁.requests = s₂.requests) :
    s₁.idle = s₂.idle := by
  rw [State.idle, State.idle, hcfg, hreq]

/-- Settles O50: a terminal step is `State.idle`, inverted and compared. -/
theorem startDiscardsOldContext : Obligations.StartDiscardsOldContext := by
  refine ⟨fun s r later hr hreq hfits => ?starts, fun s t hr ht => ?only, fun s₁ s₂ hr₁ hr₂ hcfg hreq => ?alike⟩
  case starts => exact (step_terminal hr).trans ((s.idle_eq_next_iff _).2 ⟨r, later, hreq, hfits, rfl⟩)
  case only => exact (s.idle_eq_next_iff t).1 ((step_terminal hr).symm.trans ht)
  case alike => rw [step_terminal hr₁, step_terminal hr₂, State.idle_congr hcfg hreq]

/-! ### A running state with a budget -/

theorem run_succ_of_step {s t : State} (h : step s = .next t) (k : Nat) :
    core.run (k + 1) s = core.run k t := by
  have hstep : core.step s = .next t := h
  simp only [Host.Core.run, hstep]

/-- R130: an iteration ends the run or counts one step of the budget, which was not spent. -/
theorem step_of_budget {s : State} (hr : s.runState = .running) (hb : s.hasBudget = true) :
    ∃ t, step s = .next t ∧ (t.runState ≠ .running ∨
      t.runState = .running ∧ t.hasBudget = true ∧ t.maxSteps = s.maxSteps ∧ t.steps = s.steps + 1 ∧
        s.steps < s.maxSteps) := by
  obtain ⟨t, ht, _⟩ := runningStepOutcomes s hr
  refine ⟨t, ht, or_iff_not_imp_left.2 fun hrun => ?_⟩
  obtain ⟨_, _, _, hbudget, hmax, _, _, hsteps⟩ := runKeepsItsInputs s t hr ht
  obtain ⟨hhalted, hpoll⟩ := haltedThenPoll s hr
  rw [not_not] at hrun
  refine ⟨hrun, hbudget.trans hb, hmax, hsteps.resolve_right fun h => h.2 hrun, Nat.lt_of_not_le fun hspent => ?_⟩
  cases hh : s.halted with
  | true => cases ht.symm.trans (hhalted hh); cases hrun
  | false => cases ht.symm.trans (hpoll hh (.inl ⟨hb, hspent⟩)); cases hrun

/-- Settles O51: induction on the steps still allowed; an iteration that leaves the run running takes one of them. -/
theorem budgetBoundsRun : Obligations.BudgetBoundsRun := by
  intro s hr hb
  induction hn : s.maxSteps - s.steps generalizing s with
  | zero =>
    obtain ⟨t, ht, hend | ⟨_, _, _, _, hlt⟩⟩ := step_of_budget hr hb
    · exact ⟨1, le_rfl, t, run_succ_of_step ht 0, hend⟩
    · omega
  | succ n ih =>
    obtain ⟨t, ht, hend | ⟨hrun, hbudget, hmax, hsteps, _⟩⟩ := step_of_budget hr hb
    · exact ⟨1, by omega, t, run_succ_of_step ht 0, hend⟩
    · obtain ⟨k, hk, u, hu, hend⟩ := ih t hrun hbudget (by omega)
      exact ⟨k + 1, by omega, u, (run_succ_of_step ht k).trans hu, hend⟩

end Sys2Proof.Machine
end

section
/-! ## The host's load of one instruction word (log 4)

The word's 33 bytes stand at pc after the load and begin with a complete instruction, so decode reads it whatever code
follows; the load also sets what a `Ready` state needs, and the switch of an optional instruction. -/

namespace Sys2Proof.Machine

/-- The bytes placed at `p` are read at `p`. -/
theorem drop_placeBytes (code : List Byte) (p : Nat) (bytes : List Byte) :
    (placeBytes code p bytes).drop p = bytes ++ code.drop (p + bytes.length) := by
  have hlen : ((code ++ List.replicate (p - code.length) 0).take p).length = p := by
    simp only [List.length_take, List.length_append, List.length_replicate]
    omega
  rw [placeBytes, List.append_assoc, List.drop_left' hlen]

theorem tableBytes_length (nbits w : Nat) : (tableBytes nbits w).length = 33 := by
  simp [tableBytes, maxInstrBytes]

theorem decode_of_decodeTableWord {nbits w : Nat} {i : Instr} (h : decodeTableWord nbits w = some i) :
    decode (tableBytes nbits w) = .ok i := by
  unfold decodeTableWord at h
  split at h
  · next hd => cases h; exact hd
  · cases h

/-- R91: 33 bytes hold all of any instruction. -/
theorem complete_of_decode {op : Byte} {tail : List Byte} {i : Instr} (h : decode (op :: tail) = .ok i)
    (hlen : 32 ≤ tail.length) : i.complete = true := by
  cases hf : i.pushForm with
  | none => simp [Instr.complete, hf]
  | some form =>
    obtain ⟨n, imm⟩ := form
    have hn := pushForm_le hf
    have himm : imm.length = n := by
      rw [decode_ok_push h hf, List.length_take]
      omega
    simp [Instr.complete, hf, himm]

/-- R93: a complete instruction does not depend on the bytes after those it was decoded from. -/
theorem decode_append {bytes : List Byte} {i : Instr} (h : decode bytes = .ok i) (hlen : bytes.length = 33)
    (rest : List Byte) : decode (bytes ++ rest) = .ok i := by
  obtain ⟨_, tail, hsplit, _⟩ := encodeInvertsDecode bytes i h
  have hc : i.complete = true := by
    cases bytes with
    | nil => cases h
    | cons op tail => exact complete_of_decode h (by simpa using hlen.ge)
  rw [hsplit, List.append_assoc]
  exact decodeInvertsEncode.1 i _ hc

section
variable (s : State) (bytes : List Byte)

/-- The poll passes: a step of the budget is left, and the coming sample of `ext_stop` is 0. -/
theorem loadAtPc_ready : (s.loadAtPc bytes).Ready := by
  refine ⟨rfl, rfl, Bool.eq_false_iff.2 fun h => ?_⟩
  rcases (State.limitReached_iff _).1 h with ⟨hb, hspent⟩ | hsample
  · have hb : s.hasBudget = true := hb
    have hspent : (if s.hasBudget then max s.maxSteps (s.steps + 1) else s.maxSteps) ≤ s.steps := hspent
    rw [if_pos hb] at hspent
    omega
  · have hsample : (s.extStop.set 0 false).head? = some true := hsample
    cases hs : s.extStop <;> simp [hs] at hsample

/-- R10: the load sets the switch of the optional instruction that the bytes begin with. -/
theorem present_loadAtPc {i : Instr} (h : decode bytes = .ok i) : i.present (s.loadAtPc bytes).cfg = true := by
  obtain ⟨_, rest, hsplit, _⟩ := encodeInvertsDecode bytes i h
  by_cases hdiv : i = .div
  · simp [hdiv, hsplit, Instr.present, State.loadAtPc, encode]
  by_cases hcopy : i = .codecopy
  · simp [hcopy, hsplit, Instr.present, State.loadAtPc, encode]
  simp [Instr.present, hdiv, hcopy]

theorem decodeFor_loadAtPc {i : Instr} (h : decode bytes = .ok i) (hlen : bytes.length = 33) :
    decodeFor (s.loadAtPc bytes).cfg ((s.loadAtPc bytes).code.drop (s.loadAtPc bytes).pc) = .ok i := by
  have hcode : (s.loadAtPc bytes).code.drop (s.loadAtPc bytes).pc = bytes ++ s.code.drop (s.pc + bytes.length) :=
    drop_placeBytes s.code s.pc bytes
  rw [hcode, decodeFor_of_decode _ (decode_append h hlen _), if_pos (present_loadAtPc s bytes h)]

end

/-- Settles O53: the loaded state is one in which the Runner decodes, and the word's instruction is what it reads. -/
theorem fetchWordRunsNext : Obligations.FetchWordRunsNext := by
  intro s nbits w i h
  have hd := decodeFor_loadAtPc s _ (decode_of_decodeTableWord h) (tableBytes_length nbits w)
  exact stepRunsDecodedInstruction _ i (loadAtPc_ready s _) hd

end Sys2Proof.Machine
end
